-- ==== Sys2Proof/Word.lean ====
section
/-! DEFINITION. The words of the block: bytes, 32-bit host words, 7-bit chip addresses (00_scope.md R8). -/

namespace Sys2Proof

/-- An 8-bit quantity: a chip register, a buffer byte (R8). -/
abbrev Byte := BitVec 8

/-- A 32-bit host word: the host data bus and the command word (R8). -/
abbrev Word := BitVec 32

/-- A 7-bit chip register address (R8, R70). -/
abbrev ChipAddr := BitVec 7

/-- A 12-bit host byte address (R8, R70). -/
abbrev HostAddr := BitVec 12

end Sys2Proof
end

