-- ==== Sys2Proof/Config.lean ====
section
/-! DEFINITION. The configuration record of 00_scope.md R7. Values the source settles are constants;
every other value is a field of `Params`, which the machine carries as an argument (log 1).
The values the spec leaves open are constants without a body. -/

namespace Sys2Proof.Config

/-! ## Settled by the source (R7, "source") -/

/-- `TX_FIFO_MAX`: the longest payload SEND transmits. -/
def txFifoMax : Nat := 255
/-- `RX_LEN_LIMIT`: exclusive upper bound on an accepted received length. -/
def rxLenLimit : Nat := 64
/-- `TX_TIMEOUT_MS`: how many 1 ms waits SEND makes before it gives up. -/
def txTimeoutMs : Nat := 1000
/-- `TX_POLL_MS`: the poll interval of SEND. -/
def txPollMs : Nat := 1
/-- `RESET_LOW_MS`: width of the chip-reset pulse. -/
def resetLowMs : Nat := 10
/-- `RESET_SETTLE_MS`: settle time after the pulse. -/
def resetSettleMs : Nat := 10
/-- `RSSI_OFFSET`: subtracted from the raw signal-strength byte. -/
def rssiOffset : Int := 157
/-- `SNR_DIV`: divisor of the signed signal-to-noise byte. -/
def snrDiv : Int := 4
/-- `FSTEP_NUM`, numerator of the frequency step 15625/256 Hz. -/
def fstepNum : Nat := 15625
/-- `FSTEP_DEN`, denominator of the frequency step 15625/256 Hz. -/
def fstepDen : Nat := 256
/-- `P_MIN`, lower end of the transmit-power clamp, dBm. -/
def pMin : Int := 5
/-- `P_MAX`, upper end of the transmit-power clamp, dBm. -/
def pMax : Int := 23
/-- `P_HIGH`, the power above which the auxiliary amplifier is enabled, dBm. -/
def pHigh : Int := 20
/-- `TX_BASE`, FIFO base address for transmission. -/
def txBase : Byte := 0x00#8
/-- `RX_BASE`, FIFO base address for reception. -/
def rxBase : Byte := 0x00#8
/-- `PREAMBLE_LEN`, symbols. -/
def preambleLen : BitVec 16 := 8#16
/-- `DIO_TXDONE`, DIO mapping value for transmit-done. -/
def dioTxDone : Byte := 0x40#8
/-- `IRQ_CLEAR_ALL`, written to clear every interrupt flag. -/
def irqClearAll : Byte := 0xFF#8
/-- `ID_ABSENT_A`, an identification value that means "not responding". -/
def idAbsentA : Byte := 0x00#8
/-- `ID_ABSENT_B`, an identification value that means "not responding". -/
def idAbsentB : Byte := 0xFF#8
/-- `FREQ_MAX` (R225): the largest frequency whose register value fits in 24 bits. -/
def freqMax : Nat := 1023999969

/-! ## Open values: constants without a body, nothing is known of them -/

/-- Byte number `i` of the chip's free draws (R80, U2): what a read returns once the scripted answers are used up (log 4). -/
opaque chipByte : Nat → Byte

/-- The byte on `miso` while no answer is read (R121), seen only by the hidden shift register (log 10). -/
opaque misoIdle : Nat → Byte

/-- What a buffer byte never written since block reset number `epoch` reads as, by host address (R40, R41, U1; log 3). -/
opaque ramInit (epoch addr : Nat) : Byte

/-- `CLK_HZ / 1000` (R7: OPEN, no default; U19): clock cycles in a millisecond (log 2). -/
opaque clkKHz : Nat

/-- The level of `mosi` between the last falling edge of `sck` and the rise of `cs_n` (R146 names none; log 17). -/
opaque mosiTail : Bool

end Sys2Proof.Config

namespace Sys2Proof

/-- The chip register addresses (R125), a parameter of the model. -/
structure RegMap where
  fifo : ChipAddr
  opmode : ChipAddr
  frfMsb : ChipAddr
  frfMid : ChipAddr
  frfLsb : ChipAddr
  paConfig : ChipAddr
  fifoAddrPtr : ChipAddr
  fifoTxBase : ChipAddr
  fifoRxBase : ChipAddr
  fifoRxCurrent : ChipAddr
  irqFlags : ChipAddr
  rxNbBytes : ChipAddr
  pktSnr : ChipAddr
  pktRssi : ChipAddr
  modemCfg1 : ChipAddr
  modemCfg2 : ChipAddr
  preambleMsb : ChipAddr
  preambleLsb : ChipAddr
  payloadLength : ChipAddr
  dioMapping1 : ChipAddr
  version : ChipAddr
  paDac : ChipAddr
  deriving DecidableEq, Repr

/-- The default column of R125. -/
def RegMap.default : RegMap where
  fifo := 0x00#7
  opmode := 0x01#7
  frfMsb := 0x06#7
  frfMid := 0x07#7
  frfLsb := 0x08#7
  paConfig := 0x09#7
  fifoAddrPtr := 0x0D#7
  fifoTxBase := 0x0E#7
  fifoRxBase := 0x0F#7
  fifoRxCurrent := 0x10#7
  irqFlags := 0x12#7
  rxNbBytes := 0x13#7
  pktSnr := 0x19#7
  pktRssi := 0x1A#7
  modemCfg1 := 0x1D#7
  modemCfg2 := 0x1E#7
  preambleMsb := 0x20#7
  preambleLsb := 0x21#7
  payloadLength := 0x22#7
  dioMapping1 := 0x40#7
  version := 0x42#7
  paDac := 0x4D#7

/-- The parameters of R7 that the source does not settle: a model "must take [them] as a parameter".
No step changes them. -/
structure Params where
  /-- `RegMap` (R125). -/
  regs : RegMap
  /-- `IRQ_TX_DONE`, mask of the transmit-done flag (R123). -/
  irqTxDone : Byte
  /-- `IRQ_RX_DONE`, mask of the receive-done flag (R123). -/
  irqRxDone : Byte
  /-- `DIO_RXDONE`, DIO mapping value for receive-done (R124). -/
  dioRxDone : Byte
  /-- `LORA_BIT` (R122). -/
  loraBit : Byte
  /-- `MODE_SLEEP` (R122). -/
  modeSleep : Byte
  /-- `MODE_STDBY` (R122). -/
  modeStdby : Byte
  /-- `MODE_TX` (R122). -/
  modeTx : Byte
  /-- `MODE_RXCONT` (R122). -/
  modeRxCont : Byte
  /-- `SPI_WRITE_BIT`, ORed into the address byte of a write (R120). -/
  spiWriteBit : Byte
  /-- `SPI_ADDR_MASK`, ANDed into the address byte of a read (R120). -/
  spiAddrMask : Byte
  /-- `SPI_DUMMY`, driven on `mosi` during the data phase of a read (R121). -/
  spiDummy : Byte
  /-- `PA_CONFIG_VAL(p)` for p = 5 .. 23, entry `p - 5` (R232, OPEN; log 21). -/
  paConfig : Vector Byte 19
  /-- `PADAC_HIGH` (R232). -/
  padacHigh : Byte
  /-- `MODEM_CFG1_VAL` (R126). -/
  modemCfg1 : Byte
  /-- `MODEM_CFG2_VAL` (R126). -/
  modemCfg2 : Byte
  /-- `SPI_HZ` (R7). -/
  spiHz : Nat
  /-- `CLK_HZ / 1000` (R7, OPEN). -/
  clkKHz : Nat
  deriving DecidableEq, Repr

/-- The default of `PA_CONFIG_VAL(p)` (R232): `0x80 OR (min(p, 17) - 2)` for p at most 20, `0x8F` above. -/
def Params.defaultPaConfig (p : Nat) : Byte :=
  if p ≤ 20 then 0x80#8 ||| BitVec.ofNat 8 (min p 17 - 2) else 0x8F#8

/-- The default column of R7; `CLK_HZ`, which has none, is the open constant (log 2). -/
def Params.default : Params where
  regs := RegMap.default
  irqTxDone := 0x08#8
  irqRxDone := 0x40#8
  dioRxDone := 0x00#8
  loraBit := 0x80#8
  modeSleep := 0x00#8
  modeStdby := 0x01#8
  modeTx := 0x03#8
  modeRxCont := 0x05#8
  spiWriteBit := 0x80#8
  spiAddrMask := 0x7F#8
  spiDummy := 0x00#8
  paConfig := Vector.ofFn fun i => Params.defaultPaConfig (i.val + 5)
  padacHigh := 0x87#8
  modemCfg1 := 0x72#8
  modemCfg2 := 0x74#8
  spiHz := 1000000
  clkKHz := Config.clkKHz

end Sys2Proof
end

