-- ==== Sys2Proof/Syntax.lean ====
section
/-! DEFINITION. The commands of 30_encoding.md R112: the block's instructions, one constructor per row of
spec/opcode_table.json, and their opcodes. -/

namespace Sys2Proof

/-- The opcode map of R112, a fixed set of names: no other opcode exists. -/
inductive Opcode where
  | regw | regr | fifow | fifor
  | stby | txm | rxm
  | send
  | avail | recv
  | init | config
  deriving DecidableEq, Repr

/-- A command. The address operand is the zero-extended `A` field (R113: `a = zext_8(w[14:8])`, 0x00 to 0x7F; log 23). -/
inductive Instr where
  /-- `REGW a, v`: write one chip register (R144). -/
  | regw (a v : Byte)
  /-- `REGR a`: read one chip register (R145). -/
  | regr (a : Byte)
  /-- `FIFOW n`: burst-write the FIFO from TXBUF (R148). -/
  | fifow (n : Byte)
  /-- `FIFOR n`: burst-read the FIFO into RXBUF (R149). -/
  | fifor (n : Byte)
  /-- `STBY`: enter standby (R170). -/
  | stby
  /-- `TXM`: enter transmit mode (R171). -/
  | txm
  /-- `RXM`: enter continuous-receive mode (R172). -/
  | rxm
  /-- `SEND`: transmit a message and wait for completion (R182). -/
  | send
  /-- `AVAIL`: is a received packet waiting? (R200). -/
  | avail
  /-- `RECV`: take one received packet (R202). -/
  | recv
  /-- `INIT`: reset and identify the chip (R222). -/
  | init
  /-- `CONFIG`: program the modem (R226). -/
  | config
  deriving DecidableEq, Repr

/-- The opcode of a command (R112). -/
def Instr.opcode : Instr → Opcode
  | .regw _ _ => .regw
  | .regr _ => .regr
  | .fifow _ => .fifow
  | .fifor _ => .fifor
  | .stby => .stby
  | .txm => .txm
  | .rxm => .rxm
  | .send => .send
  | .avail => .avail
  | .recv => .recv
  | .init => .init
  | .config => .config

end Sys2Proof
end

