-- ==== Sys2Proof/Machine/State.lean ====
section
/-! DEFINITION. The state of the block (10_state.md), of the agents around it (00_scope.md R5), and the
machine right after reset (70_reset_and_hazards.md R270). -/

namespace Sys2Proof.Machine

/-! ## Names the spec gives to values -/

/-- ERRCODE (60_exceptions.md R242); the values 4 to 15 are never produced and cannot be written down here. -/
inductive ErrCode where
  | none | illegalOpcode | reservedField | freqRange
  deriving DecidableEq, Repr

/-- STATUS.TX_OUTCOME (10_state.md R27); 3 is never produced. -/
inductive TxOutcome where
  | none | delivered | timeout
  deriving DecidableEq, Repr

/-- STATUS.RX_OUTCOME (R27, 43_receive.md R201). -/
inductive RxOutcome where
  | none | nothing | accepted | rejected
  deriving DecidableEq, Repr

/-- The sequencer state `seq` (R22): idle, or running command `opc` at label `step`. -/
inductive Seq where
  | idle
  | run (opc : Opcode) (step : BitVec 8)
  deriving DecidableEq, Repr

/-- An event of the trace (00_scope.md R6). -/
inductive Event where
  /-- `W(a, bytes)`: an SPI write transaction (R140). -/
  | w (a : ChipAddr) (bytes : List Byte)
  /-- `R(a, n, d)`: an SPI read transaction of `n` bytes that returned `d` (R141). -/
  | r (a : ChipAddr) (n : Nat) (d : List Byte)
  /-- `Wait(m)`: a wait of `m` milliseconds (R255). -/
  | wait (m : Nat)
  /-- `Reset(level)`: the chip-reset line was driven (R221). -/
  | reset (level : Bool)
  deriving DecidableEq, Repr

/-! ## Groups of state -/

/-- The stored fields of STATUS (R27). BUSY is `seq`, DIO0_LVL is `sync.s2`. -/
structure Status where
  done : Bool
  ovr : Bool
  dio : Bool
  chipAbsent : Bool
  avail : Bool
  rxValid : Bool
  initDone : Bool
  cfgDone : Bool
  txOutcome : TxOutcome
  rxOutcome : RxOutcome
  errCode : ErrCode
  deriving DecidableEq, Repr

/-- The host registers other than CMD, STATUS and FSM (R25, R29 to R39, R42 to R45), at the width of their stored bits. -/
structure Csr where
  doneIe : Bool
  dioIe : Bool
  rdata : Byte
  txlen : BitVec 16
  freq : Word
  pwr : Word
  irqf : Byte
  rxnb : Byte
  rxlen : Byte
  rssi : Word
  snr : Byte
  snrdb : Word
  frf : BitVec 24
  peff : Byte
  txn : Byte
  txwaits : BitVec 16
  deriving DecidableEq, Repr

/-- The latches and counters of R24, and the byte `a` RECV carries from its step 2 to its step 3 (R202; log 9).
`k` and `nb` are shown in TXWAITS and RXNB as well (log 26). -/
structure Latches where
  cmd : Word
  txlen : BitVec 16
  freq : Word
  pwr : Word
  k : BitVec 16
  nb : Byte
  rxAddr : Byte
  deriving DecidableEq, Repr

/-- The SPI pins (R47) and the hidden registers of the wire engine (R49, 40_spi_register.md R146). -/
structure Spi where
  csN : Bool
  sck : Bool
  mosi : Bool
  shift : Byte
  bitCnt : BitVec 3
  byteCnt : BitVec 9
  deriving DecidableEq, Repr

/-- The DIO0 input path (R48). -/
structure DioSync where
  s1 : Bool
  s2 : Bool
  prev : Bool
  deriving DecidableEq, Repr

/-- What the host bus answered to the last access: `h_rdata` and `h_err` (R20). -/
structure HostBus where
  rdata : Word
  err : Bool
  deriving DecidableEq, Repr

/-! ## The agents -/

/-- A host bus access (R72, R73): always one 32-bit word (R75). -/
inductive HostAccess where
  | read (a : HostAddr)
  | write (a : HostAddr) (v : Word)
  deriving DecidableEq, Repr

/-- The reference chip (20_memory.md R81): a test harness, not part of the block. -/
structure RefChip where
  creg : Vector Byte 128
  cfifo : Vector Byte 256
  /-- the test parameter `TXD` (R84); `none` is infinity -/
  txd : Option Nat
  /-- how many reads of the interrupt flags are left before transmit-done is set (R84) -/
  pending : Option Nat
  deriving DecidableEq, Repr

/-- The chip agent (R80): an oracle that answers with the scripted bytes and then with free draws, or the
reference chip of R81 to R84. -/
inductive Chip where
  | oracle (answers : List Byte)
  | reference (c : RefChip)
  deriving DecidableEq, Repr

/-- One move of an agent (00_scope.md R5). -/
inductive Input where
  /-- the host submits a command word and no other agent interferes until the command has ended (log 6) -/
  | command (w : Word)
  /-- one host bus access, between two sequencer steps (R75) -/
  | host (acc : HostAccess)
  /-- the sequencer takes its step, unless it is waiting -/
  | sequencer
  /-- the time base ends the wait in progress (R255) -/
  | timeBase
  /-- the transaction-level event `Dio0Rise` (R250) -/
  | dio0Rise
  /-- one `clk` cycle (R252): a host access, the end of the sequencer's step, the level of `dio0` -/
  | cycle (acc : Option HostAccess) (ends : Bool) (dio0 : Bool)
  /-- the block-reset pin is driven to a level (R270, R271) -/
  | rst (level : Bool)
  /-- the test event `Deliver` of the reference chip (R84) -/
  | deliver (bytes : List Byte) (addr rssi snr : Byte)
  /-- the directive `WAITDONE` (R118): read STATUS until BUSY = 0 -/
  | waitDone
  /-- the directive `READ r, name` (R118): the host reads address `a` into its variable `r` (log 27) -/
  | readInto (r : Nat) (a : HostAddr)
  deriving DecidableEq, Repr

/-! ## The state -/

/-- Values by a numeric key, in one canonical form: the keys rise strictly. -/
abbrev Cells (α : Type) := List (Nat × α)

/-- Buffer contents by host address (R40, R41): a listed address was written since block reset, an unlisted
one holds no value of its own and reads as a free value (R270, U1; log 3). -/
abbrev Memory := Cells Byte

/-- Everything the spec gives the machine, its configuration record, and the agents around it. -/
structure State where
  /-- STATUS (R27) -/
  status : Status
  /-- the other host registers (R25) -/
  csr : Csr
  /-- the hidden latches (R24) -/
  lat : Latches
  /-- the sequencer (R22) -/
  seq : Seq
  /-- TXBUF at 0x100 and RXBUF at 0x200 (R40, R41) -/
  mem : Memory
  /-- SPI pins and hidden registers (R47, R49) -/
  spi : Spi
  /-- the output pin `reset_n` (R47) -/
  resetN : Bool
  /-- the millisecond wait counter, in clock cycles (R49, R255) -/
  waitCnt : Nat
  /-- the DIO0 synchroniser (R48) -/
  sync : DioSync
  /-- the answer on the host bus to the last `HostAccess` (R20; log 15) -/
  bus : HostBus
  /-- the variables of the host program that `READ` assigns (R118), by number; an unlisted one is not assigned yet (log 27) -/
  vars : Cells Word
  /-- the level of the input pin `rst_n` (R20, R271) -/
  rstN : Bool
  /-- the chip agent (R80) -/
  chip : Chip
  /-- the configuration record (R7); no step changes it (log 1) -/
  par : Params
  /-- the agents' moves still to come, oldest first (log 5) -/
  inputs : List Input
  /-- the observation of the run (R6), oldest first -/
  trace : List Event
  /-- free bytes drawn so far (the model's own field; log 4) -/
  draws : Nat
  /-- block resets so far (the model's own field; log 3) -/
  epoch : Nat
  deriving DecidableEq, Repr

/-- Why the machine stops. -/
inductive Fault where
  /-- Raised by a sequencer move alone, when `seq` stands at a label its command does not have. R23 says this never
  happens, and no state a run reaches does it. Safe: the machine stops where the spec gives no effect (log 16). -/
  | undefinedLabel
  deriving DecidableEq, Repr

/-- Why a command has no meaning. -/
inductive Refusal where
  /-- Raised by no command: every row of the opcode table has its meaning. Safe. -/
  | notModelled (mnemonic : String)
  deriving DecidableEq, Repr

/-- STATUS after block reset (R27, R270). -/
def Status.reset : Status where
  done := false
  ovr := false
  dio := false
  chipAbsent := false
  avail := false
  rxValid := false
  initDone := false
  cfgDone := false
  txOutcome := .none
  rxOutcome := .none
  errCode := .none

/-- The host registers after block reset (R25, R270). -/
def Csr.reset : Csr where
  doneIe := false
  dioIe := false
  rdata := 0#8
  txlen := 0#16
  freq := 0#32
  pwr := 0#32
  irqf := 0#8
  rxnb := 0#8
  rxlen := 0#8
  rssi := 0#32
  snr := 0#8
  snrdb := 0#32
  frf := 0#24
  peff := 0#8
  txn := 0#8
  txwaits := 0#16

/-- The latches after block reset (R24, R270; `rxAddr`: DESIGN CHOICE, log 9). -/
def Latches.reset : Latches where
  cmd := 0#32
  txlen := 0#16
  freq := 0#32
  pwr := 0#32
  k := 0#16
  nb := 0#8
  rxAddr := 0#8

/-- The SPI pins and hidden registers after block reset (R47, R49, R270). -/
def Spi.reset : Spi where
  csN := true
  sck := false
  mosi := false
  shift := 0#8
  bitCnt := 0#3
  byteCnt := 0#9

/-- The synchroniser after block reset (R48, R270). -/
def DioSync.reset : DioSync where
  s1 := false
  s2 := false
  prev := false

/-- The machine right after block reset (R270, R271): idle, every register 0, the buffers unspecified, no agent
scheduled. `bus`, `rstN`, `vars` and the model's own fields: DESIGN CHOICE (log 15, log 20, log 27, log 4, log 5). -/
def State.reset : State where
  status := Status.reset
  csr := Csr.reset
  lat := Latches.reset
  seq := .idle
  mem := []
  spi := Spi.reset
  resetN := true
  waitCnt := 0
  sync := DioSync.reset
  bus := ⟨0#32, false⟩
  vars := []
  rstN := true
  chip := .oracle []
  par := Params.default
  inputs := []
  trace := []
  draws := 0
  epoch := 0

end Sys2Proof.Machine
end

