-- ==== Sys2Proof/Machine/Chip.lean ====
section
/-! DEFINITION. The chip agent (20_memory.md R80 to R84): what a transaction does to it and what it answers.
The reference chip is a test harness: nothing in the block depends on which chip `State.chip` holds (log 22). -/

namespace Sys2Proof.Machine

/-! ## The reference chip (R81 to R84) -/

/-- The reference chip after its reset (R81): every register 0 but VERSION = 0x12, the FIFO all 0. `txd` is the test parameter of R84. -/
def RefChip.fresh (p : Params) (txd : Option Nat) : RefChip where
  creg := (Vector.replicate 128 0#8).set p.regs.version.toNat 0x12#8 (by have := p.regs.version.isLt; omega)
  cfifo := Vector.replicate 256 0#8
  txd := txd
  pending := none

/-- `CREG[a]`. -/
def RefChip.reg (c : RefChip) (a : ChipAddr) : Byte := c.creg[a.toNat]'(by have := a.isLt; omega)

/-- `CREG[a] <- v`. -/
def RefChip.setReg (c : RefChip) (a : ChipAddr) (v : Byte) : RefChip :=
  { c with creg := c.creg.set a.toNat v (by have := a.isLt; omega) }

/-- `CFIFO[i]`. -/
def RefChip.fifoAt (c : RefChip) (i : Byte) : Byte := c.cfifo[i.toNat]'(by have := i.isLt; omega)

/-- `CFIFO[i] <- v`. -/
def RefChip.setFifo (c : RefChip) (i v : Byte) : RefChip :=
  { c with cfifo := c.cfifo.set i.toNat v (by have := i.isLt; omega) }

/-- The FIFO pointer is `CREG[R.FIFO_ADDR_PTR]` (R82). -/
def RefChip.ptr (p : Params) (c : RefChip) : Byte := c.reg p.regs.fifoAddrPtr

/-- `ptr <- (ptr + 1) mod 256` (R82). -/
def RefChip.bump (p : Params) (c : RefChip) : RefChip := c.setReg p.regs.fifoAddrPtr (c.ptr p + 1#8)

/-- `CREG[R.IRQ_FLAGS] |= flag` (R84). -/
def RefChip.raise (p : Params) (flag : Byte) (c : RefChip) : RefChip :=
  c.setReg p.regs.irqFlags (c.reg p.regs.irqFlags ||| flag)

/-- A transmission begins (R84 (a)): transmit-done comes after `TXD` more reads of the flags, at once for `TXD = 0`, never for infinity. -/
def RefChip.startTx (p : Params) (c : RefChip) : RefChip :=
  match c.txd with
  | none => { c with pending := none }
  | some 0 => { c with pending := none }.raise p p.irqTxDone
  | some (n + 1) => { c with pending := some (n + 1) }

/-- A read of the interrupt flags has been made while a transmission is in progress (R84 (a)). -/
def RefChip.flagsWereRead (p : Params) (c : RefChip) : RefChip :=
  match c.pending with
  | none => c
  | some 0 => { c with pending := none }.raise p p.irqTxDone
  | some 1 => { c with pending := none }.raise p p.irqTxDone
  | some (n + 2) => { c with pending := some (n + 1) }

/-- One data byte of a write transaction reaches register `a` (R82, R83, R84 (a)). -/
def RefChip.writeOne (p : Params) (a : ChipAddr) (v : Byte) (c : RefChip) : RefChip :=
  if a = p.regs.fifo then (c.setFifo (c.ptr p) v).bump p
  else if a = p.regs.irqFlags then c.setReg a (c.reg a &&& ~~~v)
  else if a = p.regs.version then c
  else if a = p.regs.opmode ∧ v = (p.loraBit ||| p.modeTx) then (c.setReg a v).startTx p
  else c.setReg a v

/-- One data byte of a read transaction leaves register `a` (R82, R83). -/
def RefChip.readOne (p : Params) (a : ChipAddr) (c : RefChip) : Byte × RefChip :=
  if a = p.regs.fifo then (c.fifoAt (c.ptr p), c.bump p)
  else if a = p.regs.irqFlags then (c.reg a, c.flagsWereRead p)
  else (c.reg a, c)

/-- The address of the next byte of a transaction: the FIFO stays, every other register is followed by its successor (R82).
That a transaction from another register stays once it has reached the FIFO, and that 0x00 follows 0x7F: DESIGN CHOICE (log 22). -/
def RefChip.nextAddr (p : Params) (a : ChipAddr) : ChipAddr := if a = p.regs.fifo then a else a + 1#7

/-- A write transaction `W(a, bytes)` (R82, R83). -/
def RefChip.write (p : Params) : ChipAddr → List Byte → RefChip → RefChip
  | _, [], c => c
  | a, v :: vs, c => RefChip.write p (RefChip.nextAddr p a) vs (c.writeOne p a v)

/-- A read transaction `R(a, n)` (R82, R83). -/
def RefChip.read (p : Params) : ChipAddr → Nat → RefChip → List Byte × RefChip
  | _, 0, c => ([], c)
  | a, n + 1, c =>
    ((c.readOne p a).1 :: (RefChip.read p (RefChip.nextAddr p a) n (c.readOne p a).2).1,
     (RefChip.read p (RefChip.nextAddr p a) n (c.readOne p a).2).2)

/-- `CFIFO[(addr + i) mod 256] <- bytes[i]` (R84 (b)). -/
def RefChip.fillFifo (addr : Byte) : List Byte → RefChip → RefChip
  | [], c => c
  | v :: vs, c => RefChip.fillFifo (addr + 1#8) vs (c.setFifo addr v)

/-- The test event `Deliver(bytes, addr, rssi_raw, snr_raw)` (R84 (b)). -/
def RefChip.deliver (p : Params) (bytes : List Byte) (addr rssi snr : Byte) (c : RefChip) : RefChip :=
  (((((c.fillFifo addr bytes).setReg p.regs.rxNbBytes (BitVec.ofNat 8 bytes.length)).setReg
    p.regs.fifoRxCurrent addr).setReg p.regs.pktRssi rssi).setReg p.regs.pktSnr snr).raise p p.irqRxDone

/-! ## The chip agent -/

/-- The oracle's answer to a read of `n` bytes (R80): the scripted bytes, then free draws. -/
def oracleBytes (answers : List Byte) (draws n : Nat) : List Byte :=
  (List.range n).map fun i => answers.getD i (Config.chipByte (draws + i))

/-- The chip absorbs a write (R80). -/
def Chip.write (p : Params) (a : ChipAddr) (bytes : List Byte) : Chip → Chip
  | .oracle answers => .oracle answers
  | .reference c => .reference (c.write p a bytes)

/-- The bytes the chip answers a read with (R80, U2). -/
def Chip.answer (p : Params) (a : ChipAddr) (n draws : Nat) : Chip → List Byte
  | .oracle answers => oracleBytes answers draws n
  | .reference c => (c.read p a n).1

/-- The chip after it has answered a read. -/
def Chip.afterRead (p : Params) (a : ChipAddr) (n : Nat) : Chip → Chip
  | .oracle answers => .oracle (answers.drop n)
  | .reference c => .reference (c.read p a n).2

/-- The chip when its reset line is driven (R221, R273): the reference chip is reset by the low level, what a real
chip does is the oracle's (N14). -/
def Chip.resetLine (p : Params) (level : Bool) : Chip → Chip
  | .oracle answers => .oracle answers
  | .reference c => .reference (if level then c else RefChip.fresh p c.txd)

/-- The event `Deliver` (R84 (b)) reaches the reference chip; an oracle needs none. -/
def Chip.deliver (p : Params) (bytes : List Byte) (addr rssi snr : Byte) : Chip → Chip
  | .oracle answers => .oracle answers
  | .reference c => .reference (c.deliver p bytes addr rssi snr)

end Sys2Proof.Machine
end

