-- ==== Sys2Proof/WellFormed.lean ====
section
/-! DEFINITION. Which commands the encoding can hold: the address operand of REGW and REGR is a 7-bit
chip address (30_encoding.md R111, R113, R117). -/

namespace Sys2Proof

/-- An address operand is in 0x00 .. 0x7F (R113); every other operand is a full byte (R117). -/
def Instr.wf : Instr → Bool
  | .regw a _ => decide (a.toNat < 128)
  | .regr a => decide (a.toNat < 128)
  | .fifow _ => true
  | .fifor _ => true
  | .stby => true
  | .txm => true
  | .rxm => true
  | .send => true
  | .avail => true
  | .recv => true
  | .init => true
  | .config => true

end Sys2Proof
end

