-- ==== Sys2Proof/Decode.lean ====
section
/-! DEFINITION. Decoding of command words in the order of 30_encoding.md R115, total on any bytes and
rejecting by name, and after it the encoder written from R111 and R112. -/

namespace Sys2Proof

/-- Why a word is no command (R115). -/
inductive WordError where
  /-- `w[7:0]` is not in the opcode map (R116). -/
  | illegalOpcode
  /-- bit 15, bits 31:24 or a field the command does not use is nonzero (R114). -/
  | reservedField
  deriving DecidableEq, Repr

/-- Why the decoder refuses a byte string. -/
inductive DecodeError where
  /-- the first four bytes are no command word -/
  | badWord (e : WordError)
  /-- fewer than the four bytes of a command word (R110: exactly one word) -/
  | tooShort
  deriving DecidableEq, Repr

/-- `w[7:0]`, the OPC field (R111). -/
def Word.opc (w : Word) : Byte := w.extractLsb' 0 8
/-- `zext_8(w[14:8])`, the A field as the operand `a` (R113). -/
def Word.fieldA (w : Word) : Byte := (w.extractLsb' 8 7).setWidth 8
/-- `w[23:16]`, the B field (R111). -/
def Word.fieldB (w : Word) : Byte := w.extractLsb' 16 8
/-- bits 15 and 31:24, which must be 0 in every command (R114). -/
def Word.reserved (w : Word) : Word := w &&& 0xFF008000#32

/-- The OPC column of R112, read from its number. -/
def Opcode.ofByte (b : Byte) : Option Opcode :=
  match b.toNat with
  | 0x01 => some .regw
  | 0x02 => some .regr
  | 0x03 => some .fifow
  | 0x04 => some .fifor
  | 0x10 => some .stby
  | 0x11 => some .txm
  | 0x12 => some .rxm
  | 0x20 => some .send
  | 0x30 => some .avail
  | 0x31 => some .recv
  | 0x40 => some .init
  | 0x41 => some .config
  | _ => none

/-- The number of an opcode (R112). -/
def Opcode.toByte : Opcode → Byte
  | .regw => 0x01#8
  | .regr => 0x02#8
  | .fifow => 0x03#8
  | .fifor => 0x04#8
  | .stby => 0x10#8
  | .txm => 0x11#8
  | .rxm => 0x12#8
  | .send => 0x20#8
  | .avail => 0x30#8
  | .recv => 0x31#8
  | .init => 0x40#8
  | .config => 0x41#8

/-- The A column of R112: which commands use the A field. -/
def Opcode.usesA : Opcode → Bool
  | .regw => true
  | .regr => true
  | .fifow => false
  | .fifor => false
  | .stby => false
  | .txm => false
  | .rxm => false
  | .send => false
  | .avail => false
  | .recv => false
  | .init => false
  | .config => false

/-- The B column of R112: which commands use the B field. -/
def Opcode.usesB : Opcode → Bool
  | .regw => true
  | .regr => false
  | .fifow => true
  | .fifor => true
  | .stby => false
  | .txm => false
  | .rxm => false
  | .send => false
  | .avail => false
  | .recv => false
  | .init => false
  | .config => false

/-- The command of R112 with operand bytes `a` and `b`. -/
def Opcode.instr (a b : Byte) : Opcode → Instr
  | .regw => .regw a b
  | .regr => .regr a
  | .fifow => .fifow b
  | .fifor => .fifor b
  | .stby => .stby
  | .txm => .txm
  | .rxm => .rxm
  | .send => .send
  | .avail => .avail
  | .recv => .recv
  | .init => .init
  | .config => .config

/-- R115, `decode(w)`: the tests stand in the order of the rule, which fixes the error a word with several faults reports. -/
def decodeWord (w : Word) : Except WordError Instr :=
  match Opcode.ofByte (Word.opc w) with
  | none => .error .illegalOpcode
  | some o =>
    if Word.reserved w ≠ 0#32 then .error .reservedField
    else if o.usesA = false ∧ Word.fieldA w ≠ 0#8 then .error .reservedField
    else if o.usesB = false ∧ Word.fieldB w ≠ 0#8 then .error .reservedField
    else .ok (o.instr (Word.fieldA w) (Word.fieldB w))

/-- Four bytes as a word, little-endian (20_memory.md R71). -/
def wordOfBytes (b0 b1 b2 b3 : Byte) : Word := b3 ++ b2 ++ b1 ++ b0

/-- The bytes of a word, little-endian (20_memory.md R71). -/
def wordBytes (w : Word) : List Byte :=
  [w.extractLsb' 0 8, w.extractLsb' 8 8, w.extractLsb' 16 8, w.extractLsb' 24 8]

/-- Decoding of a byte string: exactly one word is consumed (R110); the bytes after it are handed back. -/
def decode : List Byte → Except DecodeError (Instr × List Byte)
  | b0 :: b1 :: b2 :: b3 :: rest =>
    match decodeWord (wordOfBytes b0 b1 b2 b3) with
    | .ok i => .ok (i, rest)
    | .error e => .error (.badWord e)
  | _ => .error .tooShort

/-- The word whose low `nbits` bits are those of `w`, every bit above them 0. -/
def tableWord (nbits w : Nat) : Word := BitVec.ofNat 32 (w % 2 ^ nbits)

/-- What the decoder reads from an opcode-table row's bits, laid out as the host space stores them. -/
def decodeTableWord (nbits w : Nat) : Option Instr :=
  match decode (wordBytes (tableWord nbits w)) with
  | .ok (i, _) => some i
  | .error _ => none

/-! ## The encoder (R111, R112) -/

/-- The word of a command from its fields: `00000000 BBBBBBBB 0AAAAAAA OOOOOOOO` (R111). -/
def encodeFields (o : Opcode) (a : Byte) (b : Byte) : Word :=
  0#8 ++ b ++ 0#1 ++ a.setWidth 7 ++ o.toByte

/-- The command word of a command (R111, R112). -/
def encode : Instr → Word
  | .regw a v => encodeFields .regw a v
  | .regr a => encodeFields .regr a 0#8
  | .fifow n => encodeFields .fifow 0#8 n
  | .fifor n => encodeFields .fifor 0#8 n
  | .stby => encodeFields .stby 0#8 0#8
  | .txm => encodeFields .txm 0#8 0#8
  | .rxm => encodeFields .rxm 0#8 0#8
  | .send => encodeFields .send 0#8 0#8
  | .avail => encodeFields .avail 0#8 0#8
  | .recv => encodeFields .recv 0#8 0#8
  | .init => encodeFields .init 0#8 0#8
  | .config => encodeFields .config 0#8 0#8

/-- The bytes of a command word as the host space holds them. -/
def encodeBytes (i : Instr) : List Byte := wordBytes (encode i)

/-- The match and mask columns of spec/opcode_table.json (R114). -/
def Opcode.tableRow : Opcode → Word × Word
  | .regw => (0x00000001#32, 0xFF0080FF#32)
  | .regr => (0x00000002#32, 0xFFFF80FF#32)
  | .fifow => (0x00000003#32, 0xFF00FFFF#32)
  | .fifor => (0x00000004#32, 0xFF00FFFF#32)
  | .stby => (0x00000010#32, 0xFFFFFFFF#32)
  | .txm => (0x00000011#32, 0xFFFFFFFF#32)
  | .rxm => (0x00000012#32, 0xFFFFFFFF#32)
  | .send => (0x00000020#32, 0xFFFFFFFF#32)
  | .avail => (0x00000030#32, 0xFFFFFFFF#32)
  | .recv => (0x00000031#32, 0xFFFFFFFF#32)
  | .init => (0x00000040#32, 0xFFFFFFFF#32)
  | .config => (0x00000041#32, 0xFFFFFFFF#32)

/-- A word is of a table row when its masked bits are the row's (R114). -/
def Opcode.rowMatches (o : Opcode) (w : Word) : Bool :=
  decide (w &&& o.tableRow.2 = o.tableRow.1)

end Sys2Proof
end

