-- ==== Sys2Proof/Machine/Flags.lean ====
section
/-! DEFINITION. The status flags: the STATUS word (10_state.md R27), the write-one-to-clear rule (R28), the flag
tests commands make (30_encoding.md R123), and the host interrupt (60_exceptions.md R251). -/

namespace Sys2Proof.Machine

/-! ## The chip's interrupt flags (R123) -/

/-- `(f AND IRQ_TX_DONE) != 0`. -/
def txDoneSet (p : Params) (f : Byte) : Bool := decide (f &&& p.irqTxDone ≠ 0#8)

/-- `(f AND IRQ_RX_DONE) != 0`. -/
def rxDoneSet (p : Params) (f : Byte) : Bool := decide (f &&& p.irqRxDone ≠ 0#8)

/-! ## STATUS (R27) -/

/-- STATUS.BUSY: 1 while `seq` is not Idle. -/
def busy (s : State) : Bool :=
  match s.seq with
  | .idle => false
  | .run _ _ => true

/-- ERRCODE as a number (R242). -/
def ErrCode.toBits : ErrCode → BitVec 4
  | .none => 0#4
  | .illegalOpcode => 1#4
  | .reservedField => 2#4
  | .freqRange => 3#4

/-- TX_OUTCOME as a number (R27). -/
def TxOutcome.toBits : TxOutcome → BitVec 2
  | .none => 0#2
  | .delivered => 1#2
  | .timeout => 2#2

/-- RX_OUTCOME as a number (R27). -/
def RxOutcome.toBits : RxOutcome → BitVec 2
  | .none => 0#2
  | .nothing => 1#2
  | .accepted => 2#2
  | .rejected => 3#2

/-- One bit of a word. -/
def bit (b : Bool) : BitVec 1 := BitVec.ofBool b

/-- The STATUS word (R27), most significant field first; reserved bits read 0. -/
def statusWord (s : State) : Word :=
  0#12 ++ s.status.errCode.toBits ++ 0#2 ++ s.status.rxOutcome.toBits ++ s.status.txOutcome.toBits
    ++ bit s.sync.s2 ++ bit s.status.cfgDone ++ bit s.status.initDone ++ bit s.status.rxValid
    ++ bit s.status.avail ++ bit s.status.chipAbsent ++ bit s.status.dio ++ bit s.status.ovr
    ++ bit s.status.done ++ bit (busy s)

/-- A host write of `w` to STATUS (R28): clears DONE, OVR and DIO where `w` has a 1, nothing else. -/
def Status.clear (w : Word) (t : Status) : Status :=
  { t with
    done := t.done && !w.getLsbD 1
    ovr := t.ovr && !w.getLsbD 2
    dio := t.dio && !w.getLsbD 3 }

/-- The INTEN word (R29). -/
def intenWord (s : State) : Word := 0#30 ++ bit s.csr.dioIe ++ bit s.csr.doneIe

/-- The FSM word (R46): `{opc, step}` while running, 0 while idle. -/
def fsmWord (s : State) : Word :=
  match s.seq with
  | .idle => 0#32
  | .run o n => 0#16 ++ o.toByte ++ n

/-- The output `irq_o` (R251). -/
def irqO (s : State) : Bool := (s.csr.doneIe && s.status.done) || (s.csr.dioIe && s.status.dio)

/-! ## The DIO0 notification (R249, R250) -/

/-- The DIO0 part of a `clk` edge: the synchroniser shifts and a rising edge, as the synchroniser stands before the
edge, sets the sticky DIO (R249, R250; log 12). It comes last in a cycle, so a set wins over a clear (R28, R252). -/
def dioUpdate (level : Bool) (s : State) : State :=
  { s with
    sync := ⟨level, s.sync.s1, s.sync.s2⟩
    status := { s.status with dio := s.status.dio || (s.sync.s2 && !s.sync.prev) } }

/-- The transaction-level event `Dio0Rise` (R250): it sets DIO, nothing else (log 13). -/
def dio0Rise (s : State) : State := { s with status := { s.status with dio := true } }

end Sys2Proof.Machine
end

