-- ==== Sys2Proof/Machine/Operands.lean ====
section
/-! DEFINITION. The operands of commands and the values commands compute from them, on mathematical integers
narrowed at the end (00_scope.md R9). A value a command computes at its step 0 and uses later is computed again from the
latches (log 24). -/

namespace Sys2Proof.Machine

/-! ## Fields of the latched command word (30_encoding.md R113) -/

/-- `A`, the chip address operand, read from `cmd_lat` (R113; log 23). -/
def opA (s : State) : ChipAddr := (Word.fieldA s.lat.cmd).setWidth 7

/-- `B`, the value or count operand, read from `cmd_lat` (R113). -/
def opB (s : State) : Byte := Word.fieldB s.lat.cmd

/-! ## Values put on the wire -/

/-- The address byte of a transaction (R120). -/
def addrByte (p : Params) (a : ChipAddr) (isWrite : Bool) : Byte :=
  if isWrite then a.setWidth 8 ||| p.spiWriteBit else a.setWidth 8 &&& p.spiAddrMask

/-- `LORA_BIT OR MODE_SLEEP` (R122). -/
def loraSleep (p : Params) : Byte := p.loraBit ||| p.modeSleep
/-- `LORA_BIT OR MODE_STDBY` (R122). -/
def loraStandby (p : Params) : Byte := p.loraBit ||| p.modeStdby
/-- `LORA_BIT OR MODE_TX` (R122). -/
def loraTx (p : Params) : Byte := p.loraBit ||| p.modeTx
/-- `LORA_BIT OR MODE_RXCONT` (R122). -/
def loraRxCont (p : Params) : Byte := p.loraBit ||| p.modeRxCont

/-! ## Transmit (42_transmit.md) -/

/-- The effective length `n = min(lat_txlen, TX_FIFO_MAX)` (R180). -/
def sendLength (len : BitVec 16) : Nat := min len.toNat Config.txFifoMax

/-! ## Receive (43_receive.md) -/

/-- The length check (R203): `0 < nb < RX_LEN_LIMIT`. -/
def lengthAccepted (nb : Byte) : Bool := decide (0 < nb.toNat ∧ nb.toNat < Config.rxLenLimit)

/-- `sext_32((int(r) - RSSI_OFFSET) as s16)` with `r` unsigned (R204). -/
def rssiValue (r : Byte) : Word := (BitVec.ofInt 16 ((r.toNat : Int) - Config.rssiOffset)).signExtend 32

/-- `trunc_div(int(s as s8), SNR_DIV) as s32` (R205). -/
def snrDbValue (v : Byte) : Word := BitVec.ofInt 32 (v.toInt.tdiv Config.snrDiv)

/-! ## Configuration (44_init_config.md) -/

/-- The range check of CONFIG (R225). -/
def freqInRange (f : Word) : Bool := decide (f.toNat ≤ Config.freqMax)

/-- `floor_div(512 * f + 15625, 31250)` (R228): the frequency over the step `FSTEP_NUM / FSTEP_DEN`, rounded half up. -/
def frfNat (f : Nat) : Nat := (2 * Config.fstepDen * f + Config.fstepNum) / (2 * Config.fstepNum)

/-- The 24-bit frequency register value of a latched FREQ (R226 step 0, R228). -/
def frfValue (f : Word) : BitVec 24 := BitVec.ofNat 24 (frfNat f.toNat)

/-- `clamp(int(lat_pwr), P_MIN, P_MAX)` (R229). -/
def clampPower (pwr : Word) : Int := max Config.pMin (min Config.pMax pwr.toInt)

/-- The clamped power as the byte PEFF holds (R43, R226 step 0). -/
def peffValue (pwr : Word) : Byte := BitVec.ofInt 8 (clampPower pwr)

/-- `PA_CONFIG_VAL(p)` (R232), for p = 5 .. 23 the entry `p - 5` of the parameter; the clamp of R229 gives no other p. -/
def paConfigVal (p : Params) (pw : Int) : Byte := (p.paConfig[(pw - Config.pMin).toNat]?).getD 0#8

/-- The high-power amplifier is enabled (R226 step 6, R230). -/
def highPower (pwr : Word) : Bool := decide (Config.pHigh < clampPower pwr)

/-- INIT's identification test (R222 step 6, R223). -/
def idAbsent (v : Byte) : Bool := decide (v = Config.idAbsentA ∨ v = Config.idAbsentB)

end Sys2Proof.Machine
end

