-- ==== Sys2Proof/Machine/Wire.lean ====
section
/-! DEFINITION. The wire engine (40_spi_register.md R146, 30_encoding.md R120, R121): what one transaction does to the SPI
pins, the shift register and the two counters, edge by edge. No command's meaning depends on it. -/

namespace Sys2Proof.Machine

/-! ## The bytes on the wire -/

/-- The bytes a transaction shifts out on `mosi` (R120, R121, R140, R141); a wait or a reset event shifts none. -/
def mosiBytes (p : Params) : Event → List Byte
  | .w a bytes => addrByte p a true :: bytes
  | .r a n _ => addrByte p a false :: List.replicate n p.spiDummy
  | .wait _ => []
  | .reset _ => []

/-- `n` bytes on `miso` that no rule reads (R121): free (log 10). -/
def idleMiso (draws n : Nat) : List Byte := (List.range n).map fun i => Config.misoIdle (draws + i)

/-- The bits of a byte, most significant first (R76, R146). -/
def bitsMsbFirst (b : Byte) : List Bool := (List.range 8).map fun i => b.getLsbD (7 - i)

/-- One bit of a transaction on the two data lines. -/
structure WireBit where
  mosi : Bool
  miso : Bool
  deriving DecidableEq, Repr

/-- The bits of a transaction from the bytes each side sends, one bit of each side at a time. -/
def wireBits (out inn : List Byte) : List WireBit :=
  List.zipWith WireBit.mk (out.flatMap bitsMsbFirst) (inn.flatMap bitsMsbFirst)

/-- What `mosi` is set to at a falling edge: the next bit; after the last bit R146 names none (log 17). -/
def nextMosi : List WireBit → Bool
  | [] => Config.mosiTail
  | b :: _ => b.mosi

/-! ## The edges (R146) -/

/-- `cs_n <- 0` and `mosi <- bit 7 of byte 0`; the counters start at 0 (DEDUCED, log 10). The outgoing byte is not loaded
into the shift register, which keeps its old value and only receives (DESIGN CHOICE, log 10). -/
def Spi.select (first : Bool) (w : Spi) : Spi := { w with csN := false, mosi := first, bitCnt := 0#3, byteCnt := 0#9 }

/-- `sck <- 1`: the block samples `miso` into its shift register. -/
def Spi.rise (miso : Bool) (w : Spi) : Spi := { w with sck := true, shift := (w.shift.concat miso).setWidth 8 }

/-- `sck <- 0` and `mosi <- next bit`: one more bit, and after the eighth one more byte (log 10). -/
def Spi.fall (next : Bool) (w : Spi) : Spi :=
  { w with
    sck := false
    mosi := next
    bitCnt := w.bitCnt + 1#3
    byteCnt := if w.bitCnt = 7#3 then w.byteCnt + 1#9 else w.byteCnt }

/-- `cs_n <- 1`, `mosi <- 0`. -/
def Spi.deselect (w : Spi) : Spi := { w with csN := true, mosi := false }

/-- The rising and the falling edge of every bit. -/
def Spi.clock : List WireBit → Spi → Spi
  | [], w => w
  | b :: rest, w => Spi.clock rest ((w.rise b.miso).fall (nextMosi rest))

/-- The pins and hidden registers after a whole transaction of these bits. -/
def Spi.transfer (bits : List WireBit) (w : Spi) : Spi := (Spi.clock bits (w.select (nextMosi bits))).deselect

/-! ## The edges in time -/

/-- The engine in every `clk` cycle of a selected transaction, `h` cycles between two edges, from the state `cs_n` fell
in to the last cycle before `cs_n` rises (R146). -/
def Spi.cycles (h : Nat) : List WireBit → Spi → List Spi
  | [], w => List.replicate h w
  | b :: rest, w =>
    List.replicate h w ++ List.replicate h (w.rise b.miso) ++ Spi.cycles h rest ((w.rise b.miso).fall (nextMosi rest))

/-- The end of a transaction of `k` bytes whose last byte on `miso` was `last`, in closed form (R143, R146; log 10):
chip-select deasserted, the wires idle, the bit counter wrapped, `k` bytes counted. -/
def Spi.afterTransaction (k : Nat) (last : Byte) : Spi where
  csN := true
  sck := false
  mosi := false
  shift := last
  bitCnt := 0#3
  byteCnt := BitVec.ofNat 9 k

end Sys2Proof.Machine
end

