-- ==== Sys2Proof/Machine/Ops.lean ====
section
/-! DEFINITION. The named operations over buffers, chip and sequencer that every command is written with
(00_scope.md R10), and the submission, refusal and end of a command (60_exceptions.md R240 to R243, R246). -/

namespace Sys2Proof.Machine

/-! ## Lists of cells: the buffers and the host's variables -/

variable {α : Type}

/-- The value listed for a key; an unlisted key holds none. -/
def Cells.find? : Cells α → Nat → Option α
  | [], _ => none
  | (a, b) :: m, x => if a = x then some b else Cells.find? m x

/-- `m[x] <- v`, keeping the keys strictly rising. -/
def Cells.write : Cells α → Nat → α → Cells α
  | [], x, v => [(x, v)]
  | (a, b) :: m, x, v =>
    if x < a then (x, v) :: (a, b) :: m
    else if a = x then (x, v) :: m
    else (a, b) :: Cells.write m x v

/-- Every listed key is at least `lo`, and they rise strictly. -/
def Cells.risesFrom : Nat → Cells α → Bool
  | _, [] => true
  | lo, (a, _) :: m => decide (lo ≤ a) && Cells.risesFrom (a + 1) m

/-! ## Buffer memory (10_state.md R40, R41) -/

/-- Successive bytes from address `x` on. -/
def Memory.writeBytes : Memory → Nat → List Byte → Memory
  | m, _, [] => m
  | m, x, v :: vs => Memory.writeBytes (Cells.write m x v) (x + 1) vs

/-- The canonical form: strictly rising addresses, all inside TXBUF and RXBUF (0x100 to 0x2FF, R25). -/
def Memory.wf (m : Memory) : Bool :=
  Cells.risesFrom 0x100 m && m.all fun c => decide (c.1 < 0x300)

/-- The byte a buffer address reads as: its value, or for an address not written since block reset the free value of
that reset (R40, U1; log 3). -/
def bufByte (s : State) (x : Nat) : Byte := (Cells.find? s.mem x).getD (Config.ramInit s.epoch x)

/-- Host address of `TXBUF[0]` (R40). -/
def txBufBase : Nat := 0x100
/-- Host address of `RXBUF[0]` (R41). -/
def rxBufBase : Nat := 0x200

/-- `TXBUF[i]` (R40). -/
def txBuf (s : State) (i : Nat) : Byte := bufByte s (txBufBase + i)
/-- `RXBUF[i]` (R41). -/
def rxBuf (s : State) (i : Nat) : Byte := bufByte s (rxBufBase + i)

/-- `[TXBUF[0], ..., TXBUF[n-1]]`. -/
def txBytes (s : State) (n : Nat) : List Byte := (List.range n).map (txBuf s)

/-- `RXBUF[i], RXBUF[i+1], ... <- d[0], d[1], ...`. -/
def storeRx (i : Nat) (d : List Byte) (s : State) : State :=
  { s with mem := Memory.writeBytes s.mem (rxBufBase + i) d }

/-! ## SPI transactions (40_spi_register.md R140 to R143) -/

/-- `SpiWrite(a, bytes)` (R140): one write transaction; it cannot fail. What the chip drives on `miso` meanwhile is free. -/
def spiWrite (a : ChipAddr) (bytes : List Byte) (s : State) : State :=
  { s with
    chip := s.chip.write s.par a bytes
    trace := s.trace ++ [.w a bytes]
    spi := s.spi.transfer (wireBits (mosiBytes s.par (.w a bytes)) (idleMiso s.draws (bytes.length + 1)))
    draws := s.draws + bytes.length + 1 }

/-- The bytes `d` that `SpiRead(a, n)` returns (R141): the chip agent's choice (R80). -/
def spiAnswer (a : ChipAddr) (n : Nat) (s : State) : List Byte := s.chip.answer s.par a n s.draws

/-- `SpiRead(a, n)` (R141): one read transaction that returns `spiAnswer a n s`, the bytes on `miso` after the address
byte (R121). -/
def spiRead (a : ChipAddr) (n : Nat) (s : State) : State :=
  { s with
    chip := s.chip.afterRead s.par a n
    trace := s.trace ++ [.r a n (spiAnswer a n s)]
    spi := s.spi.transfer (wireBits (mosiBytes s.par (.r a n (spiAnswer a n s)))
      (idleMiso s.draws 1 ++ spiAnswer a n s))
    draws := s.draws + n + 1 }

/-- `RegWrite(a, v)` (R142): a 2-byte frame. -/
def regWrite (a : ChipAddr) (v : Byte) (s : State) : State := spiWrite a [v] s

/-- The value of `RegRead(a)`: `SpiRead(a, 1)[0]` (R142). -/
def regAnswer (a : ChipAddr) (s : State) : Byte := (spiAnswer a 1 s).headD 0#8

/-- `RegRead(a)` (R142): a 2-byte frame that returns `regAnswer a s`. -/
def regRead (a : ChipAddr) (s : State) : State := spiRead a 1 s

/-! ## Waits and the chip-reset line -/

/-- `WaitMs(m)` (R255): a step without SPI traffic; the wait counter has counted `m * CLK_HZ / 1000` cycles (log 11). `Wait(m)`
is recorded here, when the wait ends, so a wait that block reset cuts short records none (DESIGN CHOICE, log 14). -/
def waitMs (m : Nat) (s : State) : State :=
  { s with trace := s.trace ++ [.wait m], waitCnt := m * s.par.clkKHz }

/-- `SetReset(level)` (R221): drives `reset_n`, no SPI traffic. -/
def setReset (level : Bool) (s : State) : State :=
  { s with resetN := level, trace := s.trace ++ [.reset level], chip := s.chip.resetLine s.par level }

/-! ## The sequencer -/

/-- `seq <- Run(o, n)` (R23). -/
def goto (o : Opcode) (n : BitVec 8) (s : State) : State := { s with seq := .run o n }

/-- `Finish()` (R243): BUSY is 0 because `seq` is Idle. -/
def finish (s : State) : State := { s with seq := .idle, status := { s.status with done := true } }

/-! ## Submission (R240), refusal (R241) and overrun (R246) -/

/-- The first line of R240: the word is latched, DONE and ERRCODE are cleared, whether it is accepted or refused. -/
def latchWord (w : Word) (s : State) : State :=
  { s with lat := { s.lat with cmd := w }, status := { s.status with done := false, errCode := .none } }

/-- `raise CmdError(code)` (R241), the block's counterpart of taking an exception (R245): the code, DONE, and `seq` stays Idle. -/
def cmdError (code : ErrCode) (s : State) : State :=
  { s with seq := .idle, status := { s.status with done := true, errCode := code } }

/-- The last lines of R240: the arguments are latched and the command starts at label 0. -/
def accept (o : Opcode) (s : State) : State :=
  { s with
    lat := { s.lat with txlen := s.csr.txlen, freq := s.csr.freq, pwr := s.csr.pwr }
    seq := .run o 0#8 }

/-- A write the block drops because it is busy (R246): OVR and nothing else. -/
def overrun (s : State) : State := { s with status := { s.status with ovr := true } }

/-- The error code of a word the decoder refuses (R242). -/
def errOfWord : WordError → ErrCode
  | .illegalOpcode => .illegalOpcode
  | .reservedField => .reservedField

/-- R240 for a word the decoder refuses, the block being idle. -/
def refuseWord (w : Word) (e : WordError) (s : State) : State := cmdError (errOfWord e) (latchWord w s)

/-- R240 for a word `w` that decodes to `i`, the block being idle: CONFIG is refused when FREQ is out of range (R225),
everything else is accepted. -/
def beginCommand (w : Word) (i : Instr) (s : State) : State :=
  if i.opcode = .config ∧ freqInRange s.csr.freq = false then cmdError .freqRange (latchWord w s)
  else accept i.opcode (latchWord w s)

/-- R240 for any word, the block being idle. -/
def submit (w : Word) (s : State) : State :=
  match decodeWord w with
  | .error e => refuseWord w e s
  | .ok i => beginCommand w i s

/-- The guards of a host write to CMD: no effect while `rst_n` is 0 (R271), dropped with OVR while BUSY (R246;
log 8). -/
def whenReady (s : State) (act : State → State) : State :=
  if s.rstN then
    match s.seq with
    | .idle => act s
    | .run _ _ => overrun s
  else s

/-- A host write of `w` to CMD (R26). -/
def writeCmd (w : Word) (s : State) : State := whenReady s (submit w)

/-! ## A command from submission to its end -/

/-- The labels of one command: what the step at a label does, `none` where the command has no such label (R10, R23). -/
abbrev StepTable := Nat → State → Option State

/-- The sequencer runs a command's labels until it is idle, at most `fuel` steps. -/
def runTable (table : StepTable) : Nat → State → State
  | 0, s => s
  | fuel + 1, s =>
    match s.seq with
    | .idle => s
    | .run _ n =>
      match table n.toNat s with
      | some t => runTable table fuel t
      | none => s

/-- The whole command `i`: the host submits its word (R240) and the sequencer runs it to its end, no other agent's move
in between (log 6). -/
def runCommand (i : Instr) (table : StepTable) (fuel : Nat) (s : State) : Host.Outcome State Fault Refusal :=
  .next (whenReady s fun s => runTable table fuel (beginCommand (encode i) i s))

/-! ## Block reset (70_reset_and_hazards.md) -/

/-- `rst_n` falls (R270, R272): every piece of block state takes its reset value, the buffers' contents are unspecified
again, a command in progress is abandoned. The chip, the configuration, the schedule and the observation are not the
block's and stay (R273; log 18), nor are the host's variables. -/
def blockReset (s : State) : State :=
  { State.reset with
    rstN := false
    chip := s.chip
    par := s.par
    inputs := s.inputs
    vars := s.vars
    trace := s.trace
    draws := s.draws
    epoch := s.epoch + 1 }

/-- The block-reset pin is driven (R271). -/
def setRst (level : Bool) (s : State) : State := if level then { s with rstN := true } else blockReset s

end Sys2Proof.Machine
end

