-- ==== Sys2Proof/Machine/HostBus.lean ====
section
/-! DEFINITION. The host register space (20_memory.md R70 to R75): which register a host address names, what a
read returns and what a write does (10_state.md R25 to R46). -/

namespace Sys2Proof.Machine

/-- The host registers (R25), and the words of the two buffers by the host address of their first byte. -/
inductive HostReg where
  | cmd | status | inten | rdata | txlen | freq | pwr | irqf | rxnb | rxlen | rssi | snr | snrdb
  | frf | peff | txn | txwaits | fsm
  | txbuf (x : Nat)
  | rxbuf (x : Nat)
  deriving DecidableEq, Repr

/-- The host register map (R25); `none` for a misaligned address or an unmapped offset (R74). -/
def hostRegAt (a : HostAddr) : Option HostReg :=
  if a.toNat % 4 ≠ 0 then none
  else if 0x100 ≤ a.toNat ∧ a.toNat < 0x200 then some (.txbuf a.toNat)
  else if 0x200 ≤ a.toNat ∧ a.toNat < 0x300 then some (.rxbuf a.toNat)
  else
    match a.toNat with
    | 0x000 => some .cmd
    | 0x004 => some .status
    | 0x008 => some .inten
    | 0x00C => some .rdata
    | 0x010 => some .txlen
    | 0x014 => some .freq
    | 0x018 => some .pwr
    | 0x01C => some .irqf
    | 0x020 => some .rxnb
    | 0x024 => some .rxlen
    | 0x028 => some .rssi
    | 0x02C => some .snr
    | 0x030 => some .snrdb
    | 0x034 => some .frf
    | 0x038 => some .peff
    | 0x03C => some .txn
    | 0x040 => some .txwaits
    | 0x044 => some .fsm
    | _ => none

/-- The word at host addresses `x .. x+3`, little-endian (R71). -/
def bufWord (s : State) (x : Nat) : Word :=
  wordOfBytes (bufByte s x) (bufByte s (x + 1)) (bufByte s (x + 2)) (bufByte s (x + 3))

/-- The value a host read returns (R26, R27, R29 to R46, R72); reserved bits read 0. -/
def hostRegValue (s : State) : HostReg → Word
  | .cmd => s.lat.cmd
  | .status => statusWord s
  | .inten => intenWord s
  | .rdata => s.csr.rdata.setWidth 32
  | .txlen => s.csr.txlen.setWidth 32
  | .freq => s.csr.freq
  | .pwr => s.csr.pwr
  | .irqf => s.csr.irqf.setWidth 32
  | .rxnb => s.csr.rxnb.setWidth 32
  | .rxlen => s.csr.rxlen.setWidth 32
  | .rssi => s.csr.rssi
  | .snr => s.csr.snr.setWidth 32
  | .snrdb => s.csr.snrdb
  | .frf => s.csr.frf.setWidth 32
  | .peff => s.csr.peff.setWidth 32
  | .txn => s.csr.txn.setWidth 32
  | .txwaits => s.csr.txwaits.setWidth 32
  | .fsm => fsmWord s
  | .txbuf x => bufWord s x
  | .rxbuf x => bufWord s x

/-- A write of an argument register or of TXBUF: dropped with OVR while BUSY (R246). -/
def unlessBusy (s : State) (act : State → State) : State :=
  match s.seq with
  | .idle => act s
  | .run _ _ => overrun s

/-- The write action of a register (R26 to R46, R73). -/
def hostRegWrite (v : Word) (s : State) : HostReg → State
  | .cmd => unlessBusy s (submit v)
  | .status => { s with status := s.status.clear v }
  | .inten => { s with csr := { s.csr with doneIe := v.getLsbD 0, dioIe := v.getLsbD 1 } }
  | .txlen => unlessBusy s fun s => { s with csr := { s.csr with txlen := v.setWidth 16 } }
  | .freq => unlessBusy s fun s => { s with csr := { s.csr with freq := v } }
  | .pwr => unlessBusy s fun s => { s with csr := { s.csr with pwr := v } }
  | .txbuf x => unlessBusy s fun s => { s with mem := Memory.writeBytes s.mem x (wordBytes v) }
  | .rdata => s
  | .irqf => s
  | .rxnb => s
  | .rxlen => s
  | .rssi => s
  | .snr => s
  | .snrdb => s
  | .frf => s
  | .peff => s
  | .txn => s
  | .txwaits => s
  | .fsm => s
  | .rxbuf _ => s

/-- The answer of the block to a host access. -/
def respond (rdata : Word) (err : Bool) (s : State) : State := { s with bus := ⟨rdata, err⟩ }

/-- `MemRead(a, 4)` (R72, R74); while `rst_n` is 0 it returns 0 without an error (R271). -/
def hostRead (a : HostAddr) (s : State) : State :=
  if s.rstN then
    match hostRegAt a with
    | some r => respond (hostRegValue s r) false s
    | none => respond 0#32 true s
  else respond 0#32 false s

/-- `MemWrite(a, 4, v)` (R73, R74); without effect while `rst_n` is 0 (R271). The read data lines answer 0 (log 15). -/
def hostWrite (a : HostAddr) (v : Word) (s : State) : State :=
  if s.rstN then
    match hostRegAt a with
    | some r => respond 0#32 false (hostRegWrite v s r)
    | none => respond 0#32 true s
  else respond 0#32 false s

/-- One host bus access. -/
def hostAccess : HostAccess → State → State
  | .read a, s => hostRead a s
  | .write a v, s => hostWrite a v s

/-- `r <- h_rdata`: the host keeps what the last access answered in its variable `r` (R118; log 27). -/
def storeVar (r : Nat) (s : State) : State := { s with vars := Cells.write s.vars r s.bus.rdata }

/-- `READ r, name` (R118): `r <- MemRead(a, 4)`. -/
def readInto (r : Nat) (a : HostAddr) (s : State) : State := storeVar r (hostRead a s)

end Sys2Proof.Machine
end

