-- ==== Sys2Proof/Machine/SpiRegister.lean ====
section
/-! DEFINITION. The SPI register controller's commands: REGW, REGR, FIFOW, FIFOR (40_spi_register.md). -/

namespace Sys2Proof.Machine

/-- REGW (R144). -/
def regwSteps : StepTable
  | 0, s => some (finish (regWrite (opA s) (opB s) s))
  | _, _ => none

/-- REGW from its submission to its end (R144). -/
def execRegw (a v : Byte) (s : State) : Host.Outcome State Fault Refusal :=
  runCommand (.regw a v) regwSteps 1 s

/-- `csr.RDATA <- zext_32(d)` (R145). -/
def setRdata (d : Byte) (s : State) : State := { s with csr := { s.csr with rdata := d } }

/-- REGR (R145). -/
def regrSteps : StepTable
  | 0, s => some (finish (setRdata (regAnswer (opA s) s) (regRead (opA s) s)))
  | _, _ => none

/-- REGR from its submission to its end (R145). -/
def execRegr (a : Byte) (s : State) : Host.Outcome State Fault Refusal :=
  runCommand (.regr a) regrSteps 1 s

/-- FIFOW (R148). -/
def fifowSteps : StepTable
  | 0, s => some (finish (spiWrite s.par.regs.fifo (txBytes s (opB s).toNat) s))
  | _, _ => none

/-- FIFOW from its submission to its end (R148). -/
def execFifow (n : Byte) (s : State) : Host.Outcome State Fault Refusal :=
  runCommand (.fifow n) fifowSteps 1 s

/-- FIFOR (R149). -/
def fiforSteps : StepTable
  | 0, s =>
    some (finish (storeRx 0 (spiAnswer s.par.regs.fifo (opB s).toNat s)
      (spiRead s.par.regs.fifo (opB s).toNat s)))
  | _, _ => none

/-- FIFOR from its submission to its end (R149). -/
def execFifor (n : Byte) (s : State) : Host.Outcome State Fault Refusal :=
  runCommand (.fifor n) fiforSteps 1 s

end Sys2Proof.Machine
end

