-- ==== Sys2Proof/Machine/InitConfig.lean ====
section
/-! DEFINITION. Chip initialisation and configuration: INIT, CONFIG (44_init_config.md). -/

namespace Sys2Proof.Machine

/-- The status updates of INIT step 6 (R222, R223): absence is reported, never refused. -/
def initIdentified (v : Byte) (s : State) : State :=
  { s with status := { s.status with chipAbsent := idAbsent v, initDone := true, cfgDone := false } }

/-- INIT (R222). -/
def initSteps : StepTable
  | 0, s => some (goto .init 1#8 (setReset true s))
  | 1, s => some (goto .init 2#8 (setReset false s))
  | 2, s => some (goto .init 3#8 (waitMs Config.resetLowMs s))
  | 3, s => some (goto .init 4#8 (setReset true s))
  | 4, s => some (goto .init 5#8 (waitMs Config.resetSettleMs s))
  | 5, s => some (goto .init 6#8 (regWrite s.par.regs.opmode s.par.modeSleep s))
  | 6, s => some (finish (initIdentified (regAnswer s.par.regs.version s)
      (setRdata (regAnswer s.par.regs.version s) (regRead s.par.regs.version s))))
  | _, _ => none

/-- INIT from its submission to its end (R222). -/
def execInit (s : State) : Host.Outcome State Fault Refusal := runCommand .init initSteps 7 s

/-- `csr.FRF` and `csr.PEFF` (R226 step 0). -/
def configStart (s : State) : State :=
  { s with csr := { s.csr with frf := frfValue s.lat.freq, peff := peffValue s.lat.pwr } }

/-- `csr.STATUS.CFG_DONE <- 1` (R226 step 14). -/
def setCfgDone (s : State) : State := { s with status := { s.status with cfgDone := true } }

/-- CONFIG (R226). -/
def configSteps : StepTable
  | 0, s => some (goto .config 1#8 (configStart (regWrite s.par.regs.opmode s.par.modeSleep s)))
  | 1, s => some (goto .config 2#8 (regWrite s.par.regs.opmode (loraSleep s.par) s))
  | 2, s => some (goto .config 3#8 (regWrite s.par.regs.opmode (loraStandby s.par) s))
  | 3, s => some (goto .config 4#8 (regWrite s.par.regs.frfMsb ((frfValue s.lat.freq).extractLsb' 16 8) s))
  | 4, s => some (goto .config 5#8 (regWrite s.par.regs.frfMid ((frfValue s.lat.freq).extractLsb' 8 8) s))
  | 5, s => some (goto .config 6#8 (regWrite s.par.regs.frfLsb ((frfValue s.lat.freq).extractLsb' 0 8) s))
  | 6, s => some (goto .config (if highPower s.lat.pwr then 7#8 else 8#8)
      (regWrite s.par.regs.paConfig (paConfigVal s.par (clampPower s.lat.pwr)) s))
  | 7, s => some (goto .config 8#8 (regWrite s.par.regs.paDac s.par.padacHigh s))
  | 8, s => some (goto .config 9#8 (regWrite s.par.regs.modemCfg1 s.par.modemCfg1 s))
  | 9, s => some (goto .config 10#8 (regWrite s.par.regs.modemCfg2 s.par.modemCfg2 s))
  | 10, s => some (goto .config 11#8 (regWrite s.par.regs.preambleMsb (Config.preambleLen.extractLsb' 8 8) s))
  | 11, s => some (goto .config 12#8 (regWrite s.par.regs.preambleLsb (Config.preambleLen.extractLsb' 0 8) s))
  | 12, s => some (goto .config 13#8 (regWrite s.par.regs.fifoTxBase Config.txBase s))
  | 13, s => some (goto .config 14#8 (regWrite s.par.regs.fifoRxBase Config.rxBase s))
  | 14, s => some (finish (setCfgDone (regWrite s.par.regs.opmode (loraStandby s.par) s)))
  | _, _ => none

/-- CONFIG from its submission to its end (R226); its range check is part of the submission (R225, R240). -/
def execConfig (s : State) : Host.Outcome State Fault Refusal := runCommand .config configSteps 15 s

end Sys2Proof.Machine
end

