-- ==== Sys2Proof/Machine/Mode.lean ====
section
/-! DEFINITION. The mode commands: STBY, TXM, RXM (41_mode.md). -/

namespace Sys2Proof.Machine

/-- STBY (R170). -/
def stbySteps : StepTable
  | 0, s => some (finish (regWrite s.par.regs.opmode (loraStandby s.par) s))
  | _, _ => none

/-- STBY from its submission to its end (R170). -/
def execStby (s : State) : Host.Outcome State Fault Refusal := runCommand .stby stbySteps 1 s

/-- TXM (R171). -/
def txmSteps : StepTable
  | 0, s => some (finish (regWrite s.par.regs.opmode (loraTx s.par) s))
  | _, _ => none

/-- TXM from its submission to its end (R171). -/
def execTxm (s : State) : Host.Outcome State Fault Refusal := runCommand .txm txmSteps 1 s

/-- RXM (R172). -/
def rxmSteps : StepTable
  | 0, s => some (goto .rxm 1#8 (regWrite s.par.regs.dioMapping1 s.par.dioRxDone s))
  | 1, s => some (goto .rxm 2#8 (regWrite s.par.regs.irqFlags Config.irqClearAll s))
  | 2, s => some (goto .rxm 3#8 (regWrite s.par.regs.fifoAddrPtr Config.rxBase s))
  | 3, s => some (finish (regWrite s.par.regs.opmode (loraRxCont s.par) s))
  | _, _ => none

/-- RXM from its submission to its end (R172). -/
def execRxm (s : State) : Host.Outcome State Fault Refusal := runCommand .rxm rxmSteps 4 s

end Sys2Proof.Machine
end

