-- ==== Sys2Proof/Machine/Transmit.lean ====
section
/-! DEFINITION. The transmit path and its completion state machine: SEND (42_transmit.md). -/

namespace Sys2Proof.Machine

/-- The internal updates of step 0 (R182): TXN, and the loop counter from 0. -/
def sendStart (s : State) : State :=
  { s with
    csr := { s.csr with txn := BitVec.ofNat 8 (sendLength s.lat.txlen), txwaits := 0#16 }
    lat := { s.lat with k := 0#16 } }

/-- `csr.IRQF <- zext_32(f)`. -/
def setIrqf (f : Byte) (s : State) : State := { s with csr := { s.csr with irqf := f } }

/-- `csr.STATUS.TX_OUTCOME <- o` (R183). -/
def setTxOutcome (o : TxOutcome) (s : State) : State := { s with status := { s.status with txOutcome := o } }

/-- The internal updates of step 7 (R182, R183): the transmit-done bit is tested before the count. -/
def sendPolled (f : Byte) (s : State) : State :=
  if txDoneSet s.par f then goto .send 9#8 (setTxOutcome .delivered (setIrqf f s))
  else if s.lat.k.toNat = Config.txTimeoutMs then goto .send 9#8 (setTxOutcome .timeout (setIrqf f s))
  else goto .send 8#8 (setIrqf f s)

/-- The internal updates of step 8 (R182): `k <- k + 1; csr.TXWAITS <- k`. -/
def sendWaited (s : State) : State :=
  { s with
    csr := { s.csr with txwaits := s.lat.k + 1#16 }
    lat := { s.lat with k := s.lat.k + 1#16 } }

/-- SEND (R181, R182). -/
def sendSteps : StepTable
  | 0, s => some (goto .send 1#8 (sendStart (regWrite s.par.regs.opmode (loraStandby s.par) s)))
  | 1, s => some (goto .send 2#8 (regWrite s.par.regs.fifoAddrPtr Config.txBase s))
  | 2, s => some (goto .send 3#8 (spiWrite s.par.regs.fifo (txBytes s (sendLength s.lat.txlen)) s))
  | 3, s => some (goto .send 4#8
      (regWrite s.par.regs.payloadLength (BitVec.ofNat 8 (sendLength s.lat.txlen)) s))
  | 4, s => some (goto .send 5#8 (regWrite s.par.regs.dioMapping1 Config.dioTxDone s))
  | 5, s => some (goto .send 6#8 (regWrite s.par.regs.irqFlags Config.irqClearAll s))
  | 6, s => some (goto .send 7#8 (regWrite s.par.regs.opmode (loraTx s.par) s))
  | 7, s => some (sendPolled (regAnswer s.par.regs.irqFlags s) (regRead s.par.regs.irqFlags s))
  | 8, s => some (goto .send 7#8 (sendWaited (waitMs Config.txPollMs s)))
  | 9, s => some (goto .send 10#8 (regWrite s.par.regs.irqFlags s.par.irqTxDone s))
  | 10, s => some (finish (regWrite s.par.regs.opmode (loraStandby s.par) s))
  | _, _ => none

/-- The most steps a SEND takes (R184): 7 before the loop, 1001 polls, 1000 waits, 2 after the loop. -/
def sendFuel : Nat := 7 + (2 * Config.txTimeoutMs + 1) + 2

/-- SEND from its submission to its end (R182). -/
def execSend (s : State) : Host.Outcome State Fault Refusal := runCommand .send sendSteps sendFuel s

end Sys2Proof.Machine
end

