-- ==== Sys2Proof/Machine/Receive.lean ====
section
/-! DEFINITION. The packet FIFO interface and status-flag decoder: AVAIL, RECV (43_receive.md). -/

namespace Sys2Proof.Machine

/-- `csr.STATUS.AVAIL <- b` (R200). -/
def setAvail (b : Bool) (s : State) : State := { s with status := { s.status with avail := b } }

/-- The internal updates of AVAIL (R200). -/
def availPeeked (f : Byte) (s : State) : State := setAvail (rxDoneSet s.par f) (setIrqf f s)

/-- AVAIL (R200). -/
def availSteps : StepTable
  | 0, s => some (finish (availPeeked (regAnswer s.par.regs.irqFlags s) (regRead s.par.regs.irqFlags s)))
  | _, _ => none

/-- AVAIL from its submission to its end (R200). -/
def execAvail (s : State) : Host.Outcome State Fault Refusal := runCommand .avail availSteps 1 s

/-- RX_VALID and RX_OUTCOME as a RECV leaves them (R201). -/
def setRx (valid : Bool) (o : RxOutcome) (s : State) : State :=
  { s with status := { s.status with rxValid := valid, rxOutcome := o } }

/-- The internal updates of step 0 (R202): NOTHING when receive-done is clear. -/
def recvFlags (f : Byte) (s : State) : State :=
  if rxDoneSet s.par f then goto .recv 1#8 (setIrqf f s)
  else finish (setRx false .nothing (setIrqf f s))

/-- `nb` and RXNB (R202 step 1). -/
def setNb (nb : Byte) (s : State) : State :=
  { s with lat := { s.lat with nb := nb }, csr := { s.csr with rxnb := nb } }

/-- The internal updates of step 1 (R202, R203): the length check. -/
def recvLength (nb : Byte) (s : State) : State :=
  if lengthAccepted nb then goto .recv 2#8 (setNb nb s) else goto .recv 8#8 (setNb nb s)

/-- `a`, carried to step 3 (R202 step 2; log 9). -/
def setRxAddr (a : Byte) (s : State) : State := { s with lat := { s.lat with rxAddr := a } }

/-- `csr.RXLEN <- zext_32(n)` (R202 step 4). -/
def setRxlen (n : Byte) (s : State) : State := { s with csr := { s.csr with rxlen := n } }

/-- The internal updates of step 4 (R202, R206): payload, terminator, RXLEN. -/
def recvPayload (d : List Byte) (s : State) : State :=
  setRxlen s.lat.nb (storeRx s.lat.nb.toNat [0x00#8] (storeRx 0 d s))

/-- `csr.RSSI` (R202 step 5, R204). -/
def setRssi (r : Byte) (s : State) : State := { s with csr := { s.csr with rssi := rssiValue r } }

/-- `csr.SNR` and `csr.SNRDB` (R202 step 6, R205). -/
def setSnr (v : Byte) (s : State) : State := { s with csr := { s.csr with snr := v, snrdb := snrDbValue v } }

/-- RECV (R202). -/
def recvSteps : StepTable
  | 0, s => some (recvFlags (regAnswer s.par.regs.irqFlags s) (regRead s.par.regs.irqFlags s))
  | 1, s => some (recvLength (regAnswer s.par.regs.rxNbBytes s) (regRead s.par.regs.rxNbBytes s))
  | 2, s => some (goto .recv 3#8
      (setRxAddr (regAnswer s.par.regs.fifoRxCurrent s) (regRead s.par.regs.fifoRxCurrent s)))
  | 3, s => some (goto .recv 4#8 (regWrite s.par.regs.fifoAddrPtr s.lat.rxAddr s))
  | 4, s => some (goto .recv 5#8
      (recvPayload (spiAnswer s.par.regs.fifo s.lat.nb.toNat s) (spiRead s.par.regs.fifo s.lat.nb.toNat s)))
  | 5, s => some (goto .recv 6#8 (setRssi (regAnswer s.par.regs.pktRssi s) (regRead s.par.regs.pktRssi s)))
  | 6, s => some (goto .recv 7#8 (setSnr (regAnswer s.par.regs.pktSnr s) (regRead s.par.regs.pktSnr s)))
  | 7, s => some (finish (setRx true .accepted (regWrite s.par.regs.irqFlags Config.irqClearAll s)))
  | 8, s => some (finish (setRx false .rejected (regWrite s.par.regs.irqFlags Config.irqClearAll s)))
  | _, _ => none

/-- RECV from its submission to its end (R202): at most the 8 steps of an accepted packet. -/
def execRecv (s : State) : Host.Outcome State Fault Refusal := runCommand .recv recvSteps 8 s

end Sys2Proof.Machine
end

