-- ==== Sys2Proof/Machine/Sequencer.lean ====
section
/-! DEFINITION. The sequencer as an agent of its own (00_scope.md R5, R10): one label of the command in
progress at a time, so that other agents can move between two labels. -/

namespace Sys2Proof.Machine

/-- The labels of the command an opcode names (R23). -/
def stepsOf : Opcode → StepTable
  | .regw => regwSteps
  | .regr => regrSteps
  | .fifow => fifowSteps
  | .fifor => fiforSteps
  | .stby => stbySteps
  | .txm => txmSteps
  | .rxm => rxmSteps
  | .send => sendSteps
  | .avail => availSteps
  | .recv => recvSteps
  | .init => initSteps
  | .config => configSteps

/-- The last label of a command (R23). -/
def lastLabel : Opcode → Nat
  | .regw => 0
  | .regr => 0
  | .fifow => 0
  | .fifor => 0
  | .stby => 0
  | .txm => 0
  | .rxm => 3
  | .send => 10
  | .avail => 0
  | .recv => 8
  | .init => 6
  | .config => 14

/-- One sequencer step (R23): none while idle or in block reset (R271). -/
def seqMove (s : State) : Host.Outcome State Fault Refusal :=
  if s.rstN then
    match s.seq with
    | .idle => .next s
    | .run o n =>
      match stepsOf o n.toNat s with
      | some t => .next t
      | none => .fault .undefinedLabel
  else .next s

/-- The sequencer is in a millisecond wait, which only the time base ends (R255): SEND step 8, INIT steps 2 and 4. -/
def waiting (s : State) : Bool :=
  match s.seq with
  | .run .send n => decide (n = 8#8)
  | .run .init n => decide (n = 2#8 ∨ n = 4#8)
  | _ => false

/-- The sequencer's move as an agent: not enabled in a wait. -/
def sequencerMove (s : State) : Host.Outcome State Fault Refusal :=
  if waiting s then .next s else seqMove s

/-- The time base's move as an agent: it ends a wait (R5, R255). -/
def timeBaseMove (s : State) : Host.Outcome State Fault Refusal :=
  if waiting s then seqMove s else .next s

/-- Whichever of the sequencer and the time base is enabled moves. -/
def blockMove (s : State) : Host.Outcome State Fault Refusal := seqMove s

end Sys2Proof.Machine
end

