-- ==== Sys2Proof/Machine/Agents.lean ====
section
/-! DEFINITION. The moves of the agents other than a whole command (00_scope.md R5): a clock cycle in the order of
60_exceptions.md R252, the chip's events, the host's WAITDONE. -/

namespace Sys2Proof.Machine

/-- The host part of a `clk` cycle: at most one access (R20). -/
def cycleHost : Option HostAccess → State → State
  | none, s => s
  | some acc, s => hostAccess acc s

/-- The sequencer part of a `clk` cycle: its step ends in this cycle or goes on. -/
def cycleSeq (ends : Bool) (s : State) : Host.Outcome State Fault Refusal :=
  if ends then seqMove s else .next s

/-- The DIO0 part of a `clk` cycle: held at 0 while `rst_n` is 0 (R270). -/
def cycleDio (level : Bool) (s : State) : State := if s.rstN then dioUpdate level s else s

/-- One `clk` cycle (R252): first the host access, then the sequencer step, then the DIO0 update. -/
def cycleMove (acc : Option HostAccess) (ends level : Bool) (s : State) : Host.Outcome State Fault Refusal :=
  match cycleSeq ends (cycleHost acc s) with
  | .next t => .next (cycleDio level t)
  | .fault f => .fault f
  | .refused r => .refused r

/-- `Dio0Rise` (R250): without effect while `rst_n` is 0 (R270). -/
def dio0RiseMove (s : State) : State := if s.rstN then dio0Rise s else s

/-- The host address of STATUS (R25). -/
def statusAddr : HostAddr := 0x004#12

/-- `WAITDONE` (R118): the host reads STATUS; while it reads BUSY = 1 the sequencer or the time base moves and the host
reads again (log 19). -/
def waitDoneMove (s : State) : State :=
  if (hostRead statusAddr s).bus.rdata.getLsbD 0 then
    { hostRead statusAddr s with
      inputs := (if waiting s then .timeBase else .sequencer) :: .waitDone :: s.inputs }
  else hostRead statusAddr s

/-- `Deliver` (R84 (b)). -/
def deliverMove (bytes : List Byte) (addr rssi snr : Byte) (s : State) : State :=
  { s with chip := s.chip.deliver s.par bytes addr rssi snr }

/-- The move of an agent other than a whole command. -/
def agentMove : Input → State → Host.Outcome State Fault Refusal
  | .command w, s => .next (writeCmd w s)
  | .host acc, s => .next (hostAccess acc s)
  | .sequencer, s => sequencerMove s
  | .timeBase, s => timeBaseMove s
  | .dio0Rise, s => .next (dio0RiseMove s)
  | .cycle acc ends level, s => cycleMove acc ends level s
  | .rst level, s => .next (setRst level s)
  | .deliver bytes addr rssi snr, s => .next (deliverMove bytes addr rssi snr s)
  | .waitDone, s => .next (waitDoneMove s)
  | .readInto r a, s => .next (readInto r a s)

end Sys2Proof.Machine
end

