-- ==== Sys2Proof/Machine/Dispatch.lean ====
section
/-! DEFINITION. One arm per command of 30_encoding.md R112, each a direct call of its meaning. -/

namespace Sys2Proof.Machine

def exec (i : Instr) (s : State) : Host.Outcome State Fault Refusal :=
  match i with
  | .regw a v => Sys2Proof.Machine.execRegw a v s
  | .regr a => Sys2Proof.Machine.execRegr a s
  | .fifow n => Sys2Proof.Machine.execFifow n s
  | .fifor n => Sys2Proof.Machine.execFifor n s
  | .stby => Sys2Proof.Machine.execStby s
  | .txm => Sys2Proof.Machine.execTxm s
  | .rxm => Sys2Proof.Machine.execRxm s
  | .send => Sys2Proof.Machine.execSend s
  | .avail => Sys2Proof.Machine.execAvail s
  | .recv => Sys2Proof.Machine.execRecv s
  | .init => Sys2Proof.Machine.execInit s
  | .config => Sys2Proof.Machine.execConfig s

end Sys2Proof.Machine
end

