-- ==== Sys2Proof/Machine/Fetch.lean ====
section
/-! DEFINITION. How a command reaches the block (20_memory.md R89): the host's word is decoded and run, or refused. -/

namespace Sys2Proof.Machine

/-- The bytes of the command word the host submits: where a command is fetched from (R71, R89). -/
def fetchBytes (w : Word) : List Byte := wordBytes w

/-- The host submits the word `w` (R240): a command runs to its end, a word the decoder refuses is refused. -/
def stepCommand (w : Word) (s : State) : Host.Outcome State Fault Refusal :=
  match decode (fetchBytes w) with
  | .ok (i, _) => exec i s
  | .error (.badWord e) => .next (whenReady s (refuseWord w e))
  | .error .tooShort => .next (writeCmd w s)

/-- `s` made ready to run the word of an opcode-table row: out of reset, idle, the word next in the schedule (log 7). -/
def scheduleWord (nbits w : Nat) (s : State) : State :=
  { s with rstN := true, seq := .idle, inputs := .command (tableWord nbits w) :: s.inputs }

end Sys2Proof.Machine
end

