-- ==== Sys2Proof/Machine/Step.lean ====
section
/-! DEFINITION. One step of the machine: the next scheduled move of an agent, or, with none scheduled, the block's own. -/

namespace Sys2Proof.Machine

/-- One step (log 5): the oldest scheduled move; with none scheduled, the block takes its own next step. -/
def step (s : State) : Host.Outcome State Fault Refusal :=
  match s.inputs with
  | [] => blockMove s
  | .command w :: rest => stepCommand w { s with inputs := rest }
  | i :: rest => agentMove i { s with inputs := rest }

/-- `s` with the command word of an opcode-table row scheduled as the host's next submission (log 7). -/
def State.withFetchWord (s : State) (nbits w : Nat) : State := scheduleWord nbits w s

end Sys2Proof.Machine
end

