-- ==== Sys2Proof/Machine/HostProgram.lean ====
section
/-! DEFINITION. Host programs (30_encoding.md R117 to R119): lines of an assembler-like syntax and the host bus
operations they stand for. -/

namespace Sys2Proof.Machine

/-- One line of a host program: a command (R117), a directive (R118) or a pseudo-command (R119). -/
inductive HostLine where
  | command (i : Instr)
  | ldtx (i : Nat) (bytes : List Byte)
  | setlen (n : Nat)
  | setfreq (f : Word)
  | setpwr (p : Int)
  | setie (m : Word)
  | ack (m : Word)
  | waitdone
  | read (r : Nat) (name : HostReg)
  | clrirq
  | acktx
  | setptr (a : Byte)
  | setplen (n : Byte)
  | maptx
  | maprx
  | sleep
  deriving DecidableEq, Repr

/-- The offset of a host register (R25). -/
def offsetOf : HostReg → HostAddr
  | .cmd => 0x000#12
  | .status => 0x004#12
  | .inten => 0x008#12
  | .rdata => 0x00C#12
  | .txlen => 0x010#12
  | .freq => 0x014#12
  | .pwr => 0x018#12
  | .irqf => 0x01C#12
  | .rxnb => 0x020#12
  | .rxlen => 0x024#12
  | .rssi => 0x028#12
  | .snr => 0x02C#12
  | .snrdb => 0x030#12
  | .frf => 0x034#12
  | .peff => 0x038#12
  | .txn => 0x03C#12
  | .txwaits => 0x040#12
  | .fsm => 0x044#12
  | .txbuf x => BitVec.ofNat 12 x
  | .rxbuf x => BitVec.ofNat 12 x

/-- The word of a group of at most four bytes, padded with 0x00 (R118). -/
def groupWord (bytes : List Byte) : Word :=
  wordOfBytes (bytes.getD 0 0#8) (bytes.getD 1 0#8) (bytes.getD 2 0#8) (bytes.getD 3 0#8)

/-- The writes of `LDTX` (R118): one per group of four bytes, from TXBUF index `i` on. -/
def ldtxWrites (i : Nat) (bytes : List Byte) : List HostAccess :=
  (List.range ((bytes.length + 3) / 4)).map fun j =>
    .write (BitVec.ofNat 12 (txBufBase + i + 4 * j)) (groupWord (bytes.drop (4 * j)))

/-- The command a command line or a pseudo-command assembles to (R117, R119). -/
def HostLine.instr? (p : Params) : HostLine → Option Instr
  | .command i => some i
  | .clrirq => some (.regw (p.regs.irqFlags.setWidth 8) Config.irqClearAll)
  | .acktx => some (.regw (p.regs.irqFlags.setWidth 8) p.irqTxDone)
  | .setptr a => some (.regw (p.regs.fifoAddrPtr.setWidth 8) a)
  | .setplen n => some (.regw (p.regs.payloadLength.setWidth 8) n)
  | .maptx => some (.regw (p.regs.dioMapping1.setWidth 8) Config.dioTxDone)
  | .maprx => some (.regw (p.regs.dioMapping1.setWidth 8) p.dioRxDone)
  | .sleep => some (.regw (p.regs.opmode.setWidth 8) (loraSleep p))
  | .ldtx _ _ => none
  | .setlen _ => none
  | .setfreq _ => none
  | .setpwr _ => none
  | .setie _ => none
  | .ack _ => none
  | .waitdone => none
  | .read _ _ => none

/-- The host bus operations of a line (R117, R118); WAITDONE repeats its one read until BUSY = 0. -/
def HostLine.accesses (p : Params) : HostLine → List HostAccess
  | .ldtx i bytes => ldtxWrites i bytes
  | .setlen n => [.write (offsetOf .txlen) (BitVec.ofNat 32 (n % 65536))]
  | .setfreq f => [.write (offsetOf .freq) f]
  | .setpwr v => [.write (offsetOf .pwr) (BitVec.ofInt 32 v)]
  | .setie m => [.write (offsetOf .inten) m]
  | .ack m => [.write (offsetOf .status) m]
  | .waitdone => [.read (offsetOf .status)]
  | .read _ name => [.read (offsetOf name)]
  | l =>
    match l.instr? p with
    | some i => [.write (offsetOf .cmd) (encode i)]
    | none => []

/-- The moves a line schedules: a command line runs its command to the end before the next host access, as the
programs of 95_test_vectors.md assume (log 6); READ keeps the answer in its variable (log 27). -/
def HostLine.inputs (p : Params) : HostLine → List Input
  | .waitdone => [.waitDone]
  | .read r name => [.readInto r (offsetOf name)]
  | l =>
    match l.instr? p with
    | some i => [.command (encode i)]
    | none => (l.accesses p).map .host

/-- Which lines are legal (R117, R118): a command's operands fit, `LDTX` starts at a multiple of four and stays in TXBUF
(log 25). -/
def HostLine.wf : HostLine → Bool
  | .command i => i.wf
  | .ldtx i bytes => decide (i % 4 = 0 ∧ i + bytes.length ≤ 256)
  | _ => true

/-- The moves of a program, line after line. -/
def programInputs (p : Params) (lines : List HostLine) : List Input := lines.flatMap (HostLine.inputs p)

end Sys2Proof.Machine
end

