-- ==== Sys2Proof/Machine/Waveform.lean ====
section
/-! DEFINITION. The wire below the transaction level (40_spi_register.md R146, 70_reset_and_hazards.md R290): what
bytes a trace event puts on `mosi` and the pins in every clock cycle. No command's meaning depends on it. -/

namespace Sys2Proof.Machine

/-- The levels of the SPI output pins in one `clk` cycle. -/
structure Pins where
  csN : Bool
  sck : Bool
  mosi : Bool
  deriving DecidableEq, Repr

/-- `H = ceil(CLK_HZ / (2 * SPI_HZ))`, clock cycles per half period of `sck` (R146). -/
def halfPeriod (p : Params) : Nat := (1000 * p.clkKHz + 2 * p.spiHz - 1) / (2 * p.spiHz)

/-- One bit on the wire: `mosi` is set while `sck` = 0, `sck` rises after H cycles and falls after H more (R146, mode 0). -/
def bitWave (h : Nat) (b : Bool) : List Pins :=
  List.replicate h ⟨false, false, b⟩ ++ List.replicate h ⟨false, true, b⟩

/-- The pins from the fall of `cs_n` to its rise (R146): every bit, then H cycles after the last falling edge, in which the
level of `mosi` is open (log 17). -/
def selectedWave (h : Nat) (bytes : List Byte) : List Pins :=
  (bytes.flatMap bitsMsbFirst).flatMap (bitWave h) ++ List.replicate h ⟨false, false, Config.mosiTail⟩

/-- The pins of one transaction and of the 2H cycles `cs_n` stays 1 at least before the next (R146). -/
def waveform (h : Nat) (bytes : List Byte) : List Pins :=
  selectedWave h bytes ++ List.replicate (2 * h) ⟨true, false, false⟩

/-- The output pins the wire engine drives. -/
def Spi.pins (w : Spi) : Pins := ⟨w.csN, w.sck, w.mosi⟩

/-- The bits `mosi` holds at the rising edges of `sck` in a list of samples: what the other side reads (R146). -/
def sampledBits : Bool → List Pins → List Bool
  | _, [] => []
  | prev, q :: qs => if !prev && q.sck then q.mosi :: sampledBits q.sck qs else sampledBits q.sck qs

/-- The pins of an event: a transaction's waveform, nothing for the others. -/
def eventWave (p : Params) : Event → List Pins
  | .w a bytes => waveform (halfPeriod p) (mosiBytes p (.w a bytes))
  | .r a n d => waveform (halfPeriod p) (mosiBytes p (.r a n d))
  | .wait _ => []
  | .reset _ => []

/-- The `clk` cycles of an event: a transaction with its idle time (R290), a wait of `m * CLK_HZ / 1000` (R255), one cycle
for an internal step (R291). -/
def eventCycles (p : Params) : Event → Nat
  | .w a bytes => (eventWave p (.w a bytes)).length
  | .r a n d => (eventWave p (.r a n d)).length
  | .wait m => m * p.clkKHz
  | .reset _ => 1

end Sys2Proof.Machine
end

