-- ==== Sys2Proof/Safety.lean ====
section
/-! DEFINITION. What holds of the block between any two steps (the spec's whole-machine statements), as one invariant
with a named part per statement, and the notions the claims are written with. -/

namespace Sys2Proof.Machine

/-- The block executes a submitted command normally: out of reset (R271) and BUSY = 0 (R26, R240). -/
def Ready (s : State) : Prop := s.rstN = true ∧ s.seq = .idle

/-- `step` never exceeds the last label of its command (R23). -/
def LabelDefined (s : State) : Prop :=
  match s.seq with
  | .idle => True
  | .run o n => n.toNat ≤ lastLabel o

/-- A running command is the one the latched word spells (R24, R113, R240). -/
def RunsLatchedWord (s : State) : Prop :=
  match s.seq with
  | .idle => True
  | .run o _ =>
    match decodeWord s.lat.cmd with
    | .ok i => i.opcode = o
    | .error _ => False

/-- While a command runs DONE is 0 and no error stands (R240, R243, R247). -/
def RunningIsClean (s : State) : Prop :=
  match s.seq with
  | .idle => True
  | .run _ _ => s.status.done = false ∧ s.status.errCode = .none

/-- Between transactions chip-select is deasserted and the wires are idle (R47, R143, R146). -/
def WiresIdle (s : State) : Prop :=
  s.spi.csN = true ∧ s.spi.sck = false ∧ s.spi.mosi = false

/-- `reset_n` is low only between INIT step 1 and INIT step 3 (R47, R222). -/
def ResetLineLow (s : State) : Prop :=
  s.resetN = false → s.seq = .run .init 2#8 ∨ s.seq = .run .init 3#8

/-- TXWAITS shows `k`, RXNB shows `nb` (R35, R45), and the loop counter keeps its bounds (R184). -/
def CountersAgree (s : State) : Prop :=
  s.csr.txwaits = s.lat.k ∧ s.csr.rxnb = s.lat.nb ∧ s.lat.k.toNat ≤ Config.txTimeoutMs ∧
    (s.seq = .run .send 8#8 → s.lat.k.toNat < Config.txTimeoutMs)

/-- RECV is past its length check only with an accepted length (R202, R203). -/
def LengthChecked (s : State) : Prop :=
  match s.seq with
  | .run .recv n => 2 ≤ n.toNat → n.toNat ≤ 7 → lengthAccepted s.lat.nb = true
  | _ => True

/-- The result registers stay in the ranges the spec gives them (R36, R37, R39, R43). -/
def ResultsInRange (s : State) : Prop :=
  s.csr.rxlen.toNat ≤ 63 ∧ -157 ≤ s.csr.rssi.toInt ∧ s.csr.rssi.toInt ≤ 98 ∧
    s.csr.snrdb = snrDbValue s.csr.snr ∧ (s.csr.peff = 0#8 ∨ (5 ≤ s.csr.peff.toNat ∧ s.csr.peff.toNat ≤ 23))

/-- RX_VALID is 1 exactly after an ACCEPTED reception (R201), CHIP_ABSENT only after an INIT (R222). -/
def OutcomesAgree (s : State) : Prop :=
  (s.status.rxValid = true ↔ s.status.rxOutcome = .accepted) ∧
    (s.status.chipAbsent = true → s.status.initDone = true)

/-- The latches R24 names are 0 (R270). -/
def LatchesZero (l : Latches) : Prop :=
  l.cmd = 0#32 ∧ l.txlen = 0#16 ∧ l.freq = 0#32 ∧ l.pwr = 0#32 ∧ l.k = 0#16 ∧ l.nb = 0#8

/-- Every piece of block state the spec names is at its reset value (R270); no buffer byte holds a value. -/
def AtReset (s : State) : Prop :=
  s.status = Status.reset ∧ s.csr = Csr.reset ∧ LatchesZero s.lat ∧ s.seq = .idle ∧ s.mem = [] ∧
    s.spi = Spi.reset ∧ s.resetN = true ∧ s.waitCnt = 0 ∧ s.sync = DioSync.reset

/-- What every step keeps. -/
structure BlockInvariant (s : State) : Prop where
  label : LabelDefined s
  latched : RunsLatchedWord s
  clean : RunningIsClean s
  wires : WiresIdle s
  resetLine : ResetLineLow s
  counters : CountersAgree s
  length : LengthChecked s
  results : ResultsInRange s
  outcomes : OutcomesAgree s
  /-- the buffer memory keeps its canonical form -/
  memory : Memory.wf s.mem = true
  /-- the host's variables keep their canonical form -/
  vars : Cells.risesFrom 0 s.vars = true
  /-- while `rst_n` is 0 everything is at its reset value (R270) -/
  inReset : s.rstN = false → AtReset s

/-- An event with SPI traffic. -/
def Event.isTransaction : Event → Bool
  | .w _ _ => true
  | .r _ _ _ => true
  | .wait _ => false
  | .reset _ => false

/-- A transaction with other than one data byte is addressed to the FIFO (R147). -/
def burstToFifo (p : Params) : Event → Prop
  | .w a bytes => bytes.length = 1 ∨ a = p.regs.fifo
  | .r a n d => d.length = n ∧ (n = 1 ∨ a = p.regs.fifo)
  | .wait _ => True
  | .reset _ => True

/-- A transaction carries at most 255 data bytes (R147). -/
def burstBounded : Event → Prop
  | .w _ bytes => bytes.length ≤ 255
  | .r _ n _ => n ≤ 255
  | .wait _ => True
  | .reset _ => True

/-- `n` steps of the machine (R5). -/
def steps : Nat → State → Host.Outcome State Fault Refusal
  | 0, s => .next s
  | n + 1, s =>
    match step s with
    | .next t => steps n t
    | .fault f => .fault f
    | .refused r => .refused r

end Sys2Proof.Machine
end

