-- ==== Sys2Proof/Certificates/Slice0/Obligations.lean ====
section
/-! DEFINITION. The statements for the provers, from the numbered rules of spec/. -/

namespace Sys2Proof.Claims

open Sys2Proof.Machine

/-- What no command touches: the DIO0 input path, the block-reset pin, the configuration, the schedule, the host's
variables, the count of block resets. -/
structure Around (s t : State) : Prop where
  sync : t.sync = s.sync
  rstN : t.rstN = s.rstN
  par : t.par = s.par
  inputs : t.inputs = s.inputs
  vars : t.vars = s.vars
  epoch : t.epoch = s.epoch

/-- Every buffer byte reads as before. -/
def SameBuffers (s t : State) : Prop := ∀ x, bufByte t x = bufByte s x

/-- The latches after the acceptance of command `i` (R24, R240). -/
def latched (i : Instr) (s : State) : Latches :=
  { s.lat with cmd := encode i, txlen := s.csr.txlen, freq := s.csr.freq, pwr := s.csr.pwr }

/-- STATUS at the end of a command that writes no other field of it: DONE = 1, ERRCODE = 0 (R240, R243). -/
def ended (s : State) : Status := { s.status with done := true, errCode := .none }

/-- A command that began in `s` has ended in `t`: the sequencer is idle, STATUS, the host registers and the latches are
exactly these, `es` is what the observer saw, the wires are idle, and nothing around the command changed. -/
structure Ends (s t : State) (status : Status) (csr : Csr) (lat : Latches) (es : List Event) : Prop where
  idle : t.seq = .idle
  status : t.status = status
  csr : t.csr = csr
  lat : t.lat = lat
  trace : t.trace = s.trace ++ es
  wires : WiresIdle t
  around : Around s t

/-- `reset_n` and the wait counter are unchanged. -/
def SameTimers (s t : State) : Prop := t.resetN = s.resetN ∧ t.waitCnt = s.waitCnt

/-- The running command is at a wait: SEND step 8, INIT step 2 or INIT step 4 (R182, R222, R255). -/
def InWait (s : State) : Prop := s.seq = .run .send 8#8 ∨ s.seq = .run .init 2#8 ∨ s.seq = .run .init 4#8

/-- The host registers that are not words of a buffer (R25). -/
def namedRegs : List HostReg :=
  [.cmd, .status, .inten, .rdata, .txlen, .freq, .pwr, .irqf, .rxnb, .rxlen, .rssi, .snr, .snrdb, .frf, .peff, .txn,
   .txwaits, .fsm]

/-- The opcodes of R112 as numbers. -/
def opcodeNumbers : List Nat := [0x01, 0x02, 0x03, 0x04, 0x10, 0x11, 0x12, 0x20, 0x30, 0x31, 0x40, 0x41]

end Sys2Proof.Claims

section

open Sys2Proof Sys2Proof.Machine Sys2Proof.Claims

/-! ## Encoding -/

/-- R110 to R113: decoding the bytes of a command word gives the command back with every operand, and leaves the bytes
after the word. -/
def Obligations.DecodeEncodeRoundTrip : Prop :=
  ∀ (i : Instr) (rest : List Byte), i.wf = true → decode (encodeBytes i ++ rest) = .ok (i, rest)

/-- R114: one word spells one command, and the decoder accepts only words the encoder writes. -/
def Obligations.EncodeDecodeRoundTrip : Prop :=
  ∀ (w : Word) (i : Instr), decodeWord w = .ok i → encode i = w ∧ i.wf = true

/-- R115: the decoder's tests in their order, on the bits of the word; a word that passes them is the command of its
opcode with A = w[14:8], B = w[23:16]. -/
def Obligations.DecodingFollowsTheOrderedTests : Prop :=
  ∀ w : Word,
    ((w.extractLsb' 0 8).toNat ∉ opcodeNumbers → decodeWord w = .error .illegalOpcode) ∧
    ((w.extractLsb' 0 8).toNat ∈ opcodeNumbers →
      ((w.extractLsb' 24 8 ≠ 0#8 ∨ w.getLsbD 15 = true) → decodeWord w = .error .reservedField) ∧
      ((w.extractLsb' 0 8).toNat ∉ [0x01, 0x02] → w.extractLsb' 8 7 ≠ 0#7 →
        decodeWord w = .error .reservedField) ∧
      ((w.extractLsb' 0 8).toNat ∉ [0x01, 0x03, 0x04] → w.extractLsb' 16 8 ≠ 0#8 →
        decodeWord w = .error .reservedField) ∧
      (w.extractLsb' 24 8 = 0#8 → w.getLsbD 15 = false →
        ((w.extractLsb' 0 8).toNat ∉ [0x01, 0x02] → w.extractLsb' 8 7 = 0#7) →
        ((w.extractLsb' 0 8).toNat ∉ [0x01, 0x03, 0x04] → w.extractLsb' 16 8 = 0#8) →
        ∃ o : Opcode, o.toByte = w.extractLsb' 0 8 ∧
          decodeWord w = .ok (o.instr ((w.extractLsb' 8 7).setWidth 8) (w.extractLsb' 16 8))))

/-- R114: the match and mask of a row select exactly the words that decode to its command, so the decoder can be written
from the table alone, and no word is of two rows. -/
def Obligations.TableRowsSelectTheDecodedWords : Prop :=
  (∀ (o : Opcode) (w : Word), o.rowMatches w = true ↔ ∃ i, decodeWord w = .ok i ∧ i.opcode = o) ∧
  (∀ (o o' : Opcode) (w : Word), o.rowMatches w = true → o'.rowMatches w = true → o = o')

/-- R127: the example words and the example address bytes, with the default parameters. -/
def Obligations.ExampleWordsDecode : Prop :=
  decodeWord 0x00000D01#32 = .ok (.regw 0x0D#8 0x00#8) ∧
  (HostLine.setptr 0x00#8).instr? Params.default = some (.regw 0x0D#8 0x00#8) ∧
  decodeWord 0x00FF1201#32 = .ok (.regw 0x12#8 0xFF#8) ∧
  HostLine.clrirq.instr? Params.default = some (.regw 0x12#8 0xFF#8) ∧
  decodeWord 0x00404001#32 = .ok (.regw 0x40#8 0x40#8) ∧
  HostLine.maptx.instr? Params.default = some (.regw 0x40#8 0x40#8) ∧
  decodeWord 0x00004202#32 = .ok (.regr 0x42#8) ∧
  decodeWord 0x000C0003#32 = .ok (.fifow 12#8) ∧
  decodeWord 0x00FF0004#32 = .ok (.fifor 255#8) ∧
  decodeWord 0x00000010#32 = .ok .stby ∧
  decodeWord 0x00000011#32 = .ok .txm ∧
  decodeWord 0x00000012#32 = .ok .rxm ∧
  decodeWord 0x00000020#32 = .ok .send ∧
  decodeWord 0x00000030#32 = .ok .avail ∧
  decodeWord 0x00000031#32 = .ok .recv ∧
  decodeWord 0x00000040#32 = .ok .init ∧
  decodeWord 0x00000041#32 = .ok .config ∧
  decodeWord 0x00014202#32 = .error .reservedField ∧
  decodeWord 0x00008001#32 = .error .reservedField ∧
  decodeWord 0x00000000#32 = .error .illegalOpcode ∧
  mosiBytes Params.default (.w 0x01#7 [0x81#8]) = [0x81#8, 0x81#8] ∧
  (∀ d, mosiBytes Params.default (.r 0x12#7 1 d) = [0x12#8, 0x00#8]) ∧
  mosiBytes Params.default (.w 0x12#7 [0xFF#8]) = [0x92#8, 0xFF#8] ∧
  (∀ bytes, (mosiBytes Params.default (.w 0x00#7 bytes)).head? = some 0x80#8) ∧
  (∀ n d, (mosiBytes Params.default (.r 0x00#7 n d)).head? = some 0x00#8)

/-- R119: each pseudo-command is one REGW with the register and value of the table. -/
def Obligations.PseudoCommandsAreRegisterWrites : Prop :=
  ∀ (p : Params) (a n : Byte),
    HostLine.clrirq.instr? p = some (.regw (p.regs.irqFlags.setWidth 8) 0xFF#8) ∧
    HostLine.acktx.instr? p = some (.regw (p.regs.irqFlags.setWidth 8) p.irqTxDone) ∧
    (HostLine.setptr a).instr? p = some (.regw (p.regs.fifoAddrPtr.setWidth 8) a) ∧
    (HostLine.setplen n).instr? p = some (.regw (p.regs.payloadLength.setWidth 8) n) ∧
    HostLine.maptx.instr? p = some (.regw (p.regs.dioMapping1.setWidth 8) 0x40#8) ∧
    HostLine.maprx.instr? p = some (.regw (p.regs.dioMapping1.setWidth 8) p.dioRxDone) ∧
    HostLine.sleep.instr? p = some (.regw (p.regs.opmode.setWidth 8) (p.loraBit ||| p.modeSleep))

/-! ## A step and the commands it runs -/

/-- The step that fetches a command word runs exactly the decoded command, with the word taken off the schedule; and a
word placed by `withFetchWord` is the one fetched next (the schedule is the model's choice: log 5, log 7). -/
def Obligations.StepRunsTheDecodedCommand : Prop :=
  (∀ (s : State) (w : Word) (i : Instr) (tail : List Byte) (rest : List Input),
    s.inputs = .command w :: rest → decode (fetchBytes w) = .ok (i, tail) →
      step s = exec i { s with inputs := rest }) ∧
  (∀ (s : State) (nbits w : Nat) (i : Instr), decodeTableWord nbits w = some i →
    step (s.withFetchWord nbits w) = exec i { s with rstN := true, seq := .idle })

/-- R5, R10, R240 (log 6 for the whole command): from a state the block is ready in, with no other agent scheduled, a whole
command is its submission followed by finitely many steps of the sequencer and the time base, and the block is then idle. -/
def Obligations.CommandIsSubmissionThenSequencerSteps : Prop :=
  ∀ (i : Instr) (s : State), i.wf = true → Ready s → s.inputs = [] →
    ∃ (n : Nat) (t : State), n ≤ 2010 ∧ exec i s = .next t ∧ steps n (writeCmd (encode i) s) = .next t ∧ t.seq = .idle

/-- R225, R240, R241, R242: a refused word changes nothing but CMD, ERRCODE and DONE: no transaction, no wait, no result
register, no argument latch (log 15 for the unchanged answer on the host bus). -/
def Obligations.RefusedWordHasNoPartialEffect : Prop :=
  (∀ (s : State) (w : Word) (e : WordError) (rest : List Input), Ready s → s.inputs = .command w :: rest →
    decodeWord w = .error e →
      step s = .next { s with
        inputs := rest
        lat := { s.lat with cmd := w }
        status := { s.status with done := true, errCode := errOfWord e } }) ∧
  (∀ s : State, Ready s → s.csr.freq.toNat > 1023999969 →
      exec .config s = .next { s with
        lat := { s.lat with cmd := 0x00000041#32 }
        status := { s.status with done := true, errCode := .freqRange } }) ∧
  (errOfWord .illegalOpcode).toBits = 1#4 ∧ (errOfWord .reservedField).toBits = 2#4 ∧
    ErrCode.freqRange.toBits = 3#4

/-- R26, R246: a command submitted while BUSY = 1 is dropped and sets OVR, nothing else (log 8, log 15). -/
def Obligations.BusyBlockDropsCommands : Prop :=
  ∀ (s : State) (i : Instr) (o : Opcode) (n : BitVec 8), s.rstN = true → s.seq = .run o n →
    exec i s = .next { s with status := { s.status with ovr := true } }

/-- R144: REGW performs one register write and nothing else. -/
def Obligations.RegwWritesOneRegister : Prop :=
  ∀ (a v : Byte) (s : State), Ready s → ∃ t, exec (.regw a v) s = .next t ∧
    Ends s t (ended s) s.csr (latched (.regw a v) s) [.w (a.setWidth 7) [v]] ∧
    t.chip = s.chip.write s.par (a.setWidth 7) [v] ∧ SameBuffers s t ∧ SameTimers s t

/-- R145: REGR performs one register read; RDATA is the byte read. With a scripted chip it is the chip's next answer. -/
def Obligations.RegrReadsOneRegister : Prop :=
  ∀ (a : Byte) (s : State), Ready s → ∃ t d, exec (.regr a) s = .next t ∧
    Ends s t (ended s) { s.csr with rdata := d } (latched (.regr a) s) [.r (a.setWidth 7) 1 [d]] ∧
    (∀ b rest, s.chip = .oracle (b :: rest) → d = b ∧ t.chip = .oracle rest) ∧
    SameBuffers s t ∧ SameTimers s t

/-- R148: FIFOW streams TXBUF[0..n-1] to the FIFO in one write burst; n = 0 is the address byte alone. -/
def Obligations.FifowStreamsTxbuf : Prop :=
  ∀ (n : Byte) (s : State), Ready s → ∃ t, exec (.fifow n) s = .next t ∧
    Ends s t (ended s) s.csr (latched (.fifow n) s)
      [.w s.par.regs.fifo ((List.range n.toNat).map fun i => bufByte s (0x100 + i))] ∧
    SameBuffers s t ∧ SameTimers s t

/-- R149: FIFOR reads n bytes of the FIFO in one burst into RXBUF[0..n-1]; every other buffer byte is unchanged, no
terminator is written. With a scripted chip the bytes are its next answers. -/
def Obligations.FiforFillsRxbuf : Prop :=
  ∀ (n : Byte) (s : State), Ready s → ∃ t d, exec (.fifor n) s = .next t ∧ d.length = n.toNat ∧
    Ends s t (ended s) s.csr (latched (.fifor n) s) [.r s.par.regs.fifo n.toNat d] ∧
    (∀ i b, d[i]? = some b → bufByte t (0x200 + i) = b) ∧
    (∀ x, ¬ (0x200 ≤ x ∧ x < 0x200 + n.toNat) → bufByte t x = bufByte s x) ∧
    (∀ bytes rest, bytes.length = n.toNat → s.chip = .oracle (bytes ++ rest) → d = bytes ∧ t.chip = .oracle rest) ∧
    SameTimers s t

/-- R170, R171: STBY and TXM write only the mode register, with the LoRa bit. -/
def Obligations.StbyAndTxmWriteOnlyTheMode : Prop :=
  ∀ s : State, Ready s →
    (∃ t, exec .stby s = .next t ∧
      Ends s t (ended s) s.csr (latched .stby s) [.w s.par.regs.opmode [s.par.loraBit ||| s.par.modeStdby]] ∧
      SameBuffers s t ∧ SameTimers s t) ∧
    (∃ t, exec .txm s = .next t ∧
      Ends s t (ended s) s.csr (latched .txm s) [.w s.par.regs.opmode [s.par.loraBit ||| s.par.modeTx]] ∧
      SameBuffers s t ∧ SameTimers s t)

/-- R172: RXM maps DIO0, clears the flags, sets the pointer and only then enters continuous receive. -/
def Obligations.RxmPreparesThenEntersReceive : Prop :=
  ∀ s : State, Ready s → ∃ t, exec .rxm s = .next t ∧
    Ends s t (ended s) s.csr (latched .rxm s)
      [.w s.par.regs.dioMapping1 [s.par.dioRxDone], .w s.par.regs.irqFlags [0xFF#8],
       .w s.par.regs.fifoAddrPtr [0x00#8], .w s.par.regs.opmode [s.par.loraBit ||| s.par.modeRxCont]] ∧
    SameBuffers s t ∧ SameTimers s t

/-- R182, R183, R184: SEND performs its set-up writes, polls the flags until the first read that shows transmit-done or
the read after 1000 waits, acknowledges and returns to standby; `fs` are the reads before the last one, `f` the last. -/
def Obligations.SendRunsToDeliveredOrTimeout : Prop :=
  ∀ s : State, Ready s → ∃ (t : State) (fs : List Byte) (f : Byte), exec .send s = .next t ∧
    fs.length ≤ 1000 ∧ (∀ g ∈ fs, g &&& s.par.irqTxDone = 0#8) ∧
    (f &&& s.par.irqTxDone ≠ 0#8 ∨ fs.length = 1000) ∧
    Ends s t
      { ended s with txOutcome := if f &&& s.par.irqTxDone ≠ 0#8 then .delivered else .timeout }
      { s.csr with
        txn := BitVec.ofNat 8 (min s.csr.txlen.toNat 255)
        txwaits := BitVec.ofNat 16 fs.length
        irqf := f }
      { latched .send s with k := BitVec.ofNat 16 fs.length }
      ([.w s.par.regs.opmode [s.par.loraBit ||| s.par.modeStdby],
        .w s.par.regs.fifoAddrPtr [0x00#8],
        .w s.par.regs.fifo ((List.range (min s.csr.txlen.toNat 255)).map fun i => bufByte s (0x100 + i)),
        .w s.par.regs.payloadLength [BitVec.ofNat 8 (min s.csr.txlen.toNat 255)],
        .w s.par.regs.dioMapping1 [0x40#8],
        .w s.par.regs.irqFlags [0xFF#8],
        .w s.par.regs.opmode [s.par.loraBit ||| s.par.modeTx]] ++
       fs.flatMap (fun g => [.r s.par.regs.irqFlags 1 [g], .wait 1]) ++
       [.r s.par.regs.irqFlags 1 [f],
        .w s.par.regs.irqFlags [s.par.irqTxDone],
        .w s.par.regs.opmode [s.par.loraBit ||| s.par.modeStdby]]) ∧
    SameBuffers s t ∧ t.resetN = s.resetN

/-- R182, R183 with a scripted chip: the reads are the chip's answers in order; the first that shows transmit-done ends
the loop as DELIVERED after as many waits as answers before it, and 1001 answers without it end it as TIMEOUT. -/
def Obligations.SendFollowsTheChipsAnswers : Prop :=
  ∀ (s : State) (fs : List Byte) (f : Byte) (rest : List Byte), Ready s → fs.length ≤ 1000 →
    (∀ g ∈ fs, g &&& s.par.irqTxDone = 0#8) → (f &&& s.par.irqTxDone ≠ 0#8 ∨ fs.length = 1000) →
    s.chip = .oracle (fs ++ f :: rest) →
      ∃ t, exec .send s = .next t ∧ t.chip = .oracle rest ∧ t.csr.irqf = f ∧
        t.csr.txwaits = BitVec.ofNat 16 fs.length ∧
        t.status.txOutcome = (if f &&& s.par.irqTxDone ≠ 0#8 then .delivered else .timeout) ∧
        t.trace.length = s.trace.length + 10 + 2 * fs.length

/-- R181: the table of the transmit-completion state machine: at each step one transaction or wait, then the next step;
`step` is what FSM shows. -/
def Obligations.SendStateMachineTable : Prop :=
  ∀ (s : State) (n : BitVec 8), s.rstN = true → s.seq = .run .send n → n.toNat ≤ 10 →
    (hostRead 0x044#12 s).bus.rdata = 0#16 ++ 0x20#8 ++ n ∧
    ∃ (t : State) (e : Event) (next : Seq), seqMove s = .next t ∧ t.trace = s.trace ++ [e] ∧ t.seq = next ∧
      (n = 0#8 → e = .w s.par.regs.opmode [s.par.loraBit ||| s.par.modeStdby] ∧ next = .run .send 1#8) ∧
      (n = 1#8 → e = .w s.par.regs.fifoAddrPtr [0x00#8] ∧ next = .run .send 2#8) ∧
      (n = 2#8 → e = .w s.par.regs.fifo
          ((List.range (min s.lat.txlen.toNat 255)).map fun i => bufByte s (0x100 + i)) ∧ next = .run .send 3#8) ∧
      (n = 3#8 → e = .w s.par.regs.payloadLength [BitVec.ofNat 8 (min s.lat.txlen.toNat 255)] ∧
          next = .run .send 4#8) ∧
      (n = 4#8 → e = .w s.par.regs.dioMapping1 [0x40#8] ∧ next = .run .send 5#8) ∧
      (n = 5#8 → e = .w s.par.regs.irqFlags [0xFF#8] ∧ next = .run .send 6#8) ∧
      (n = 6#8 → e = .w s.par.regs.opmode [s.par.loraBit ||| s.par.modeTx] ∧ next = .run .send 7#8) ∧
      (n = 7#8 → ∃ f, e = .r s.par.regs.irqFlags 1 [f] ∧
          next = if f &&& s.par.irqTxDone ≠ 0#8 ∨ s.lat.k.toNat = 1000 then .run .send 9#8 else .run .send 8#8) ∧
      (n = 8#8 → e = .wait 1 ∧ next = .run .send 7#8) ∧
      (n = 9#8 → e = .w s.par.regs.irqFlags [s.par.irqTxDone] ∧ next = .run .send 10#8) ∧
      (n = 10#8 → e = .w s.par.regs.opmode [s.par.loraBit ||| s.par.modeStdby] ∧ next = .idle)

/-- R200: AVAIL is one read of the flags and no write; IRQF is the byte, AVAIL its receive-done bit. -/
def Obligations.AvailPeeksTheFlags : Prop :=
  ∀ s : State, Ready s → ∃ t f, exec .avail s = .next t ∧
    Ends s t { ended s with avail := decide (f &&& s.par.irqRxDone ≠ 0#8) } { s.csr with irqf := f }
      (latched .avail s) [.r s.par.regs.irqFlags 1 [f]] ∧
    (∀ b rest, s.chip = .oracle (b :: rest) → f = b ∧ t.chip = .oracle rest) ∧
    SameBuffers s t ∧ SameTimers s t

/-- R201 to R206: RECV reads the flags and ends with NOTHING when receive-done is clear; otherwise it reads the count and
ends with REJECTED when it is outside 1..63, having cleared the flags; otherwise with ACCEPTED: pointer, burst of exactly
`nb` bytes into RXBUF, terminator, RXLEN, RSSI, SNR, SNRDB, flags cleared. In the first two cases the packet registers and
the buffers keep their values. -/
def Obligations.RecvEndsInOneOfThreeOutcomes : Prop :=
  ∀ s : State, Ready s → ∃ t f, exec .recv s = .next t ∧ SameTimers s t ∧
    ((f &&& s.par.irqRxDone = 0#8 ∧
      Ends s t { ended s with rxValid := false, rxOutcome := .nothing } { s.csr with irqf := f }
        (latched .recv s) [.r s.par.regs.irqFlags 1 [f]] ∧ SameBuffers s t) ∨
     (f &&& s.par.irqRxDone ≠ 0#8 ∧ ∃ nb : Byte, ¬ (0 < nb.toNat ∧ nb.toNat < 64) ∧
      Ends s t { ended s with rxValid := false, rxOutcome := .rejected } { s.csr with irqf := f, rxnb := nb }
        { latched .recv s with nb := nb }
        [.r s.par.regs.irqFlags 1 [f], .r s.par.regs.rxNbBytes 1 [nb], .w s.par.regs.irqFlags [0xFF#8]] ∧
      SameBuffers s t) ∨
     (f &&& s.par.irqRxDone ≠ 0#8 ∧ ∃ (nb a r q x : Byte) (d : List Byte),
      (0 < nb.toNat ∧ nb.toNat < 64) ∧ d.length = nb.toNat ∧
      Ends s t { ended s with rxValid := true, rxOutcome := .accepted }
        { s.csr with
          irqf := f
          rxnb := nb
          rxlen := nb
          rssi := BitVec.ofInt 32 ((r.toNat : Int) - 157)
          snr := q
          snrdb := BitVec.ofInt 32 (q.toInt.tdiv 4) }
        { latched .recv s with nb := nb, rxAddr := x }
        [.r s.par.regs.irqFlags 1 [f], .r s.par.regs.rxNbBytes 1 [nb], .r s.par.regs.fifoRxCurrent 1 [a],
         .w s.par.regs.fifoAddrPtr [a], .r s.par.regs.fifo nb.toNat d, .r s.par.regs.pktRssi 1 [r],
         .r s.par.regs.pktSnr 1 [q], .w s.par.regs.irqFlags [0xFF#8]] ∧
      (∀ i b, d[i]? = some b → bufByte t (0x200 + i) = b) ∧
      bufByte t (0x200 + nb.toNat) = 0x00#8 ∧
      (∀ x, ¬ (0x200 ≤ x ∧ x ≤ 0x200 + nb.toNat) → bufByte t x = bufByte s x)))

/-- R201 to R206 with a scripted chip: which outcome it is and every value RECV takes are the chip's answers in order. -/
def Obligations.RecvFollowsTheChipsAnswers : Prop :=
  ∀ (s : State) (f : Byte) (answers : List Byte), Ready s → s.chip = .oracle (f :: answers) →
    (f &&& s.par.irqRxDone = 0#8 → ∃ t, exec .recv s = .next t ∧ t.status.rxOutcome = .nothing ∧
      t.csr.irqf = f ∧ t.chip = .oracle answers) ∧
    (f &&& s.par.irqRxDone ≠ 0#8 → ∀ (nb : Byte) (rest : List Byte), answers = nb :: rest →
      ¬ (0 < nb.toNat ∧ nb.toNat < 64) → ∃ t, exec .recv s = .next t ∧ t.status.rxOutcome = .rejected ∧
        t.csr.rxnb = nb ∧ t.chip = .oracle rest) ∧
    (f &&& s.par.irqRxDone ≠ 0#8 → ∀ (nb a r q : Byte) (d rest : List Byte),
      answers = nb :: a :: (d ++ r :: q :: rest) → 0 < nb.toNat → nb.toNat < 64 → d.length = nb.toNat →
      ∃ t, exec .recv s = .next t ∧ t.status.rxOutcome = .accepted ∧ t.csr.rxlen = nb ∧ t.csr.snr = q ∧
        t.csr.rssi = BitVec.ofInt 32 ((r.toNat : Int) - 157) ∧
        (∀ i b, d[i]? = some b → bufByte t (0x200 + i) = b) ∧ t.chip = .oracle rest)

/-- R221 to R223: INIT pulses `reset_n`, waits 10 ms twice, writes the plain sleep mode, reads the identification byte
into RDATA; CHIP_ABSENT tells whether it is 0x00 or 0xFF, INIT_DONE is set and CFG_DONE cleared, whatever the byte is. -/
def Obligations.InitResetsAndIdentifiesTheChip : Prop :=
  ∀ s : State, Ready s → ∃ t v, exec .init s = .next t ∧
    Ends s t
      { ended s with chipAbsent := decide (v = 0x00#8 ∨ v = 0xFF#8), initDone := true, cfgDone := false }
      { s.csr with rdata := v } (latched .init s)
      [.reset true, .reset false, .wait 10, .reset true, .wait 10, .w s.par.regs.opmode [s.par.modeSleep],
       .r s.par.regs.version 1 [v]] ∧
    (∀ b rest, s.chip = .oracle (b :: rest) → v = b ∧ t.chip = .oracle rest) ∧
    t.resetN = true ∧ SameBuffers s t

/-- R226 to R231: CONFIG with FREQ in range programs the modem: sleep, LoRa select, standby, the 24-bit frequency MSB
first, the amplifier with the power clamped to [5, 23], the auxiliary amplifier only above 20 dBm, the modem bytes, the
preamble length, the FIFO bases, standby; FRF, PEFF and CFG_DONE are written. -/
def Obligations.ConfigProgramsTheModem : Prop :=
  ∀ (s : State) (p : Int) (frf : BitVec 24), Ready s → s.csr.freq.toNat ≤ 1023999969 →
    p = max 5 (min 23 s.csr.pwr.toInt) → frf = BitVec.ofNat 24 ((512 * s.csr.freq.toNat + 15625) / 31250) →
    ∃ t, exec .config s = .next t ∧
      Ends s t { ended s with cfgDone := true } { s.csr with frf := frf, peff := BitVec.ofInt 8 p }
        (latched .config s)
        ([.w s.par.regs.opmode [s.par.modeSleep], .w s.par.regs.opmode [s.par.loraBit ||| s.par.modeSleep],
          .w s.par.regs.opmode [s.par.loraBit ||| s.par.modeStdby],
          .w s.par.regs.frfMsb [frf.extractLsb' 16 8], .w s.par.regs.frfMid [frf.extractLsb' 8 8],
          .w s.par.regs.frfLsb [frf.extractLsb' 0 8],
          .w s.par.regs.paConfig [(s.par.paConfig[(p - 5).toNat]?).getD 0#8]] ++
         (if 20 < p then [.w s.par.regs.paDac [s.par.padacHigh]] else []) ++
         [.w s.par.regs.modemCfg1 [s.par.modemCfg1], .w s.par.regs.modemCfg2 [s.par.modemCfg2],
          .w s.par.regs.preambleMsb [0x00#8], .w s.par.regs.preambleLsb [0x08#8],
          .w s.par.regs.fifoTxBase [0x00#8], .w s.par.regs.fifoRxBase [0x00#8],
          .w s.par.regs.opmode [s.par.loraBit ||| s.par.modeStdby]]) ∧
      SameBuffers s t ∧ SameTimers s t

/-- R51, R250, R21: whatever command runs, to whatever end: the argument registers, INTEN, TXBUF, OVR, DIO and everything
around the command are unchanged, the trace only grows, and the block is idle with DONE = 1. -/
def Obligations.CommandsKeepWhatIsNotTheirs : Prop :=
  ∀ (i : Instr) (s t : State), Ready s → exec i s = .next t →
    t.csr.doneIe = s.csr.doneIe ∧ t.csr.dioIe = s.csr.dioIe ∧ t.csr.txlen = s.csr.txlen ∧
    t.csr.freq = s.csr.freq ∧ t.csr.pwr = s.csr.pwr ∧ t.status.ovr = s.status.ovr ∧ t.status.dio = s.status.dio ∧
    (∀ x, x < 0x200 → bufByte t x = bufByte s x) ∧ Around s t ∧ t.seq = .idle ∧ t.status.done = true ∧
    t.lat.cmd = encode i ∧ ∃ es, t.trace = s.trace ++ es

/-! ## Values -/

/-- R225, R228: for every accepted frequency the register value is the integer nearest to f / 61.03515625 (no tie can
occur) and fits in 24 bits; FREQ_MAX is the largest such frequency; and the vectors of R228. -/
def Obligations.FrequencyValueIsNearest : Prop :=
  (∀ f : Nat, 31250 * frfNat f ≤ 512 * f + 15625 ∧ 512 * f + 15625 < 31250 * (frfNat f + 1) ∧
    ∀ k : Nat, 512 * f ≠ 15625 * (2 * k + 1)) ∧
  (∀ f : Word, freqInRange f = true ↔ frfNat f.toNat < 2 ^ 24) ∧
  (∀ f : Word, freqInRange f = true → (frfValue f).toNat = frfNat f.toNat) ∧
  frfNat 915000000 = 0xE4C000 ∧ frfNat 868000000 = 0xD90000 ∧ frfNat 433000000 = 0x6C4000 ∧ frfNat 30 = 0 ∧
  frfNat 31 = 1 ∧ frfNat 0 = 0 ∧ frfNat 1023999969 = 0xFFFFFF ∧
  (∀ s : State, Ready s → s.csr.freq = 1023999970#32 →
    ∃ t, exec .config s = .next t ∧ t.status.errCode = .freqRange ∧ t.trace = s.trace)

/-- R229, R43: PEFF is the requested power clamped to [5, 23]; the vectors of R229. -/
def Obligations.PowerIsClamped : Prop :=
  (∀ w : Word, clampPower w = max 5 (min 23 w.toInt) ∧ ((peffValue w).toNat : Int) = max 5 (min 23 w.toInt)) ∧
  (∀ w : Word, 5 ≤ (peffValue w).toNat ∧ (peffValue w).toNat ≤ 23) ∧
  peffValue (BitVec.ofInt 32 (-2147483648)) = 5#8 ∧ peffValue (BitVec.ofInt 32 (-10)) = 5#8 ∧
  peffValue 0#32 = 5#8 ∧ peffValue 5#32 = 5#8 ∧ peffValue 20#32 = 20#8 ∧ peffValue 21#32 = 21#8 ∧
  peffValue 23#32 = 23#8 ∧ peffValue 100#32 = 23#8 ∧ peffValue 2147483647#32 = 23#8

/-- R204: RSSI is the unsigned raw byte minus 157, in -157..98; the vectors of R204. -/
def Obligations.RssiIsRawMinusOffset : Prop :=
  (∀ r : Byte, (rssiValue r).toInt = (r.toNat : Int) - 157 ∧ -157 ≤ (rssiValue r).toInt ∧
    (rssiValue r).toInt ≤ 98) ∧
  (rssiValue 157#8).toInt = 0 ∧ (rssiValue 100#8).toInt = -57 ∧ (rssiValue 0#8).toInt = -157 ∧
  (rssiValue 255#8).toInt = 98

/-- R205: SNR holds the raw byte and SNRDB the signed raw byte divided by 4, rounded toward zero; the vectors of R205. -/
def Obligations.SnrIsTruncatedQuotient : Prop :=
  (∀ q : Byte, (snrDbValue q).toInt = q.toInt.tdiv 4) ∧
  (∀ (q : Byte) (s : State), (setSnr q s).csr = { s.csr with snr := q, snrdb := snrDbValue q }) ∧
  (snrDbValue 0x28#8).toInt = 10 ∧ (snrDbValue 0xF8#8).toInt = -2 ∧ (snrDbValue 0x00#8).toInt = 0 ∧
  (snrDbValue 0x03#8).toInt = 0 ∧ (snrDbValue 0xF9#8).toInt = -1 ∧ (snrDbValue 0xFF#8).toInt = 0 ∧
  (snrDbValue 0x7F#8).toInt = 31 ∧ (snrDbValue 0x80#8).toInt = -32

/-- R232, the default of the OPEN parameter: its values for p = 5, 10, 17..23, and `0x80 OR (min(p, 17) - 2)` up to 20. -/
def Obligations.DefaultAmplifierByte : Prop :=
  (∀ p : Fin 19, paConfigVal Params.default ((p.val : Int) + 5) =
    if p.val + 5 ≤ 20 then 0x80#8 ||| BitVec.ofNat 8 (min (p.val + 5) 17 - 2) else 0x8F#8) ∧
  paConfigVal Params.default 5 = 0x83#8 ∧ paConfigVal Params.default 10 = 0x88#8 ∧
  paConfigVal Params.default 17 = 0x8F#8 ∧ paConfigVal Params.default 23 = 0x8F#8 ∧
  Params.default.padacHigh = 0x87#8

/-! ## The host bus -/

/-- R25, R26, R30, R34 to R39, R42 to R46, R71, R72, R74: a mapped aligned read returns the register's value and changes
no state; a misaligned or unmapped access answers h_err = 1, 0 for a read, and changes no state; exactly those addresses
are mapped; and the value at every offset, fields below 32 bits zero-extended (SNR too), buffer words little-endian. -/
def Obligations.HostAccessesAnswerOrError : Prop :=
  ∀ (a : HostAddr) (v : Word) (s : State), s.rstN = true →
    ((a.toNat % 4 = 0 ∧ (a.toNat < 0x048 ∨ (0x100 ≤ a.toNat ∧ a.toNat < 0x300))) →
      ∃ r, hostRegAt a = some r ∧
        hostAccess (.read a) s = { s with bus := ⟨hostRegValue s r, false⟩ } ∧
        (hostAccess (.write a v) s).bus.err = false) ∧
    (¬ (a.toNat % 4 = 0 ∧ (a.toNat < 0x048 ∨ (0x100 ≤ a.toNat ∧ a.toNat < 0x300))) →
      hostAccess (.read a) s = { s with bus := ⟨0#32, true⟩ } ∧
      ∃ d, hostAccess (.write a v) s = { s with bus := ⟨d, true⟩ }) ∧
    (hostRead 0x000#12 s).bus.rdata = s.lat.cmd ∧
    (hostRead 0x004#12 s).bus.rdata = statusWord s ∧
    ((hostRead 0x008#12 s).bus.rdata.getLsbD 0 = s.csr.doneIe ∧
      (hostRead 0x008#12 s).bus.rdata.getLsbD 1 = s.csr.dioIe ∧
      (hostRead 0x008#12 s).bus.rdata.extractLsb' 2 30 = 0#30) ∧
    (hostRead 0x00C#12 s).bus.rdata.toNat = s.csr.rdata.toNat ∧
    (hostRead 0x010#12 s).bus.rdata.toNat = s.csr.txlen.toNat ∧
    (hostRead 0x014#12 s).bus.rdata = s.csr.freq ∧
    (hostRead 0x018#12 s).bus.rdata = s.csr.pwr ∧
    (hostRead 0x01C#12 s).bus.rdata.toNat = s.csr.irqf.toNat ∧
    (hostRead 0x020#12 s).bus.rdata.toNat = s.csr.rxnb.toNat ∧
    (hostRead 0x024#12 s).bus.rdata.toNat = s.csr.rxlen.toNat ∧
    (hostRead 0x028#12 s).bus.rdata = s.csr.rssi ∧
    (hostRead 0x02C#12 s).bus.rdata.toNat = s.csr.snr.toNat ∧
    (hostRead 0x030#12 s).bus.rdata = s.csr.snrdb ∧
    (hostRead 0x034#12 s).bus.rdata.toNat = s.csr.frf.toNat ∧
    (hostRead 0x038#12 s).bus.rdata.toNat = s.csr.peff.toNat ∧
    (hostRead 0x03C#12 s).bus.rdata.toNat = s.csr.txn.toNat ∧
    (hostRead 0x040#12 s).bus.rdata.toNat = s.csr.txwaits.toNat ∧
    (hostRead 0x044#12 s).bus.rdata = fsmWord s ∧
    (a.toNat % 4 = 0 → 0x100 ≤ a.toNat → a.toNat < 0x300 → ∀ k, k < 4 →
      (hostRead a s).bus.rdata.extractLsb' (8 * k) 8 = bufByte s (a.toNat + k))

/-- R25, R29, R31, R32, R33, R71, R246: what the host writes to an argument register while the block is idle reads back,
reserved bits as 0, and nothing else changes; a word written to TXBUF reads back and its bytes lie little-endian, every
other buffer byte and everything else unchanged; a write to a read-only register or RXBUF is ignored, without OVR. -/
def Obligations.ArgumentRegistersReadBack : Prop :=
  ∀ (s : State) (v : Word), Ready s →
    (hostRead 0x010#12 (hostWrite 0x010#12 v s)).bus.rdata = (v.setWidth 16).setWidth 32 ∧
    (hostRead 0x014#12 (hostWrite 0x014#12 v s)).bus.rdata = v ∧
    (hostRead 0x018#12 (hostWrite 0x018#12 v s)).bus.rdata = v ∧
    (hostRead 0x008#12 (hostWrite 0x008#12 v s)).bus.rdata = (v.setWidth 2).setWidth 32 ∧
    (∃ d, hostWrite 0x010#12 v s =
      { s with bus := ⟨d, false⟩, csr := { s.csr with txlen := v.extractLsb' 0 16 } }) ∧
    (∃ d, hostWrite 0x014#12 v s = { s with bus := ⟨d, false⟩, csr := { s.csr with freq := v } }) ∧
    (∃ d, hostWrite 0x018#12 v s = { s with bus := ⟨d, false⟩, csr := { s.csr with pwr := v } }) ∧
    (∃ d, hostWrite 0x008#12 v s =
      { s with bus := ⟨d, false⟩, csr := { s.csr with doneIe := v.getLsbD 0, dioIe := v.getLsbD 1 } }) ∧
    (∀ a : HostAddr, a.toNat % 4 = 0 → 0x100 ≤ a.toNat → a.toNat < 0x200 →
      (hostRead a (hostWrite a v s)).bus.rdata = v ∧
      (∀ k, k < 4 → bufByte (hostWrite a v s) (a.toNat + k) = v.extractLsb' (8 * k) 8) ∧
      (∀ x, ¬ (a.toNat ≤ x ∧ x < a.toNat + 4) → bufByte (hostWrite a v s) x = bufByte s x) ∧
      { hostWrite a v s with mem := s.mem, bus := s.bus } = s) ∧
    (∀ a : HostAddr, a.toNat % 4 = 0 →
      (a.toNat = 0x00C ∨ (0x01C ≤ a.toNat ∧ a.toNat < 0x048) ∨ (0x200 ≤ a.toNat ∧ a.toNat < 0x300)) →
        ∃ d, hostWrite a v s = { s with bus := ⟨d, false⟩ })

/-- R28: a write of `w` to STATUS clears DONE, OVR and DIO where `w` has a 1 in bits 1, 2 and 3, and changes nothing else,
whatever BUSY is; in the cycle of a new edge, DIO stays 1. (That the edge shows as s2 = 1, prev = 0 before the cycle is the
model's reading: log 12.) -/
def Obligations.StatusIsWriteOneToClear : Prop :=
  (∀ (s : State) (w : Word), s.rstN = true → ∃ d, hostWrite 0x004#12 w s = { s with
      bus := ⟨d, false⟩
      status := { s.status with
        done := if w.getLsbD 1 then false else s.status.done
        ovr := if w.getLsbD 2 then false else s.status.ovr
        dio := if w.getLsbD 3 then false else s.status.dio } }) ∧
  (∀ (s t : State) (w : Word) (ends level : Bool), s.rstN = true → s.sync.s2 = true → s.sync.prev = false →
    cycleMove (some (.write 0x004#12 w)) ends level s = .next t → t.status.dio = true)

/-- R27, R183, R201, R242: every field of the STATUS word at its bits; reserved bits read 0; BUSY is 1 exactly while `seq`
is not Idle; and the numbers of the outcomes and the error codes. -/
def Obligations.StatusWordLayout : Prop :=
  (TxOutcome.none.toBits = 0#2 ∧ TxOutcome.delivered.toBits = 1#2 ∧ TxOutcome.timeout.toBits = 2#2) ∧
  (RxOutcome.none.toBits = 0#2 ∧ RxOutcome.nothing.toBits = 1#2 ∧ RxOutcome.accepted.toBits = 2#2 ∧
    RxOutcome.rejected.toBits = 3#2) ∧
  (ErrCode.none.toBits = 0#4 ∧ ErrCode.illegalOpcode.toBits = 1#4 ∧ ErrCode.reservedField.toBits = 2#4 ∧
    ErrCode.freqRange.toBits = 3#4) ∧
  ∀ s : State,
    ((statusWord s).getLsbD 0 = true ↔ s.seq ≠ .idle) ∧ (statusWord s).getLsbD 1 = s.status.done ∧
    (statusWord s).getLsbD 2 = s.status.ovr ∧ (statusWord s).getLsbD 3 = s.status.dio ∧
    (statusWord s).getLsbD 4 = s.status.chipAbsent ∧ (statusWord s).getLsbD 5 = s.status.avail ∧
    (statusWord s).getLsbD 6 = s.status.rxValid ∧ (statusWord s).getLsbD 7 = s.status.initDone ∧
    (statusWord s).getLsbD 8 = s.status.cfgDone ∧ (statusWord s).getLsbD 9 = s.sync.s2 ∧
    (statusWord s).extractLsb' 10 2 = s.status.txOutcome.toBits ∧
    (statusWord s).extractLsb' 12 2 = s.status.rxOutcome.toBits ∧ (statusWord s).extractLsb' 14 2 = 0#2 ∧
    (statusWord s).extractLsb' 16 4 = s.status.errCode.toBits ∧ (statusWord s).extractLsb' 20 12 = 0#12

/-- R46: FSM is {opc, step} while a command runs, 0 while idle, bits 31:16 read 0. -/
def Obligations.FsmWordShowsTheSequencer : Prop :=
  ∀ s : State, s.rstN = true →
    (∀ o n, s.seq = .run o n →
      (hostRead 0x044#12 s).bus.rdata.extractLsb' 0 8 = n ∧
      (hostRead 0x044#12 s).bus.rdata.extractLsb' 8 8 = o.toByte ∧
      (hostRead 0x044#12 s).bus.rdata.extractLsb' 16 16 = 0#16) ∧
    (s.seq = .idle → (hostRead 0x044#12 s).bus.rdata = 0#32)

/-- R26: CMD reads back the last word submitted while not busy, whether it was accepted or refused. -/
def Obligations.CmdReadsTheLastSubmittedWord : Prop :=
  ∀ (s : State) (w : Word), Ready s → (hostRead 0x000#12 (hostWrite 0x000#12 w s)).bus.rdata = w

/-- R240: a host write of a command word while idle latches the word and the arguments and starts the command at its
label 0, with DONE and ERRCODE cleared and no SPI traffic yet. -/
def Obligations.SubmissionLatchesArguments : Prop :=
  ∀ (s : State) (w : Word) (i : Instr), Ready s → decodeWord w = .ok i →
    (i = .config → s.csr.freq.toNat ≤ 1023999969) →
      ∃ d, hostWrite 0x000#12 w s = { s with
        bus := ⟨d, false⟩
        seq := .run i.opcode 0#8
        lat := { s.lat with cmd := w, txlen := s.csr.txlen, freq := s.csr.freq, pwr := s.csr.pwr }
        status := { s.status with done := false, errCode := .none } }

/-- R246: while BUSY, a host write to CMD, TXLEN, FREQ, PWR or TXBUF is dropped with OVR = 1 and h_err = 0; STATUS and
INTEN writes are accepted; writes to read-only registers are ignored and set no OVR. -/
def Obligations.BusyBlockDropsHostWrites : Prop :=
  ∀ (s : State) (a : HostAddr) (v : Word) (r : HostReg) (o : Opcode) (n : BitVec 8), s.rstN = true →
    s.seq = .run o n → hostRegAt a = some r → ∃ d,
      match r with
      | .cmd | .txlen | .freq | .pwr | .txbuf _ =>
        hostWrite a v s = { s with bus := ⟨d, false⟩, status := { s.status with ovr := true } }
      | .status => hostWrite a v s = { s with bus := ⟨d, false⟩, status := s.status.clear v }
      | .inten => hostWrite a v s =
          { s with bus := ⟨d, false⟩, csr := { s.csr with doneIe := v.getLsbD 0, dioIe := v.getLsbD 1 } }
      | _ => hostWrite a v s = { s with bus := ⟨d, false⟩ }

/-- R21, R41, R75, R246: a host access never changes a result register, RXBUF, the chip or the observation; and while a
command runs it changes nothing that command reads: the latches, the sequencer, the argument registers, TXBUF. -/
def Obligations.HostCannotDisturbResultsOrCommand : Prop :=
  ∀ (acc : HostAccess) (s : State),
    (let t := hostAccess acc s
     t.csr.rdata = s.csr.rdata ∧ t.csr.irqf = s.csr.irqf ∧ t.csr.rxnb = s.csr.rxnb ∧ t.csr.rxlen = s.csr.rxlen ∧
     t.csr.rssi = s.csr.rssi ∧ t.csr.snr = s.csr.snr ∧ t.csr.snrdb = s.csr.snrdb ∧ t.csr.frf = s.csr.frf ∧
     t.csr.peff = s.csr.peff ∧ t.csr.txn = s.csr.txn ∧ t.csr.txwaits = s.csr.txwaits ∧
     (∀ x, ¬ (0x100 ≤ x ∧ x < 0x200) → bufByte t x = bufByte s x) ∧ t.chip = s.chip ∧ t.trace = s.trace ∧
     t.spi = s.spi ∧ t.resetN = s.resetN ∧ t.par = s.par ∧ t.vars = s.vars) ∧
    (∀ o n, s.seq = .run o n →
      let t := hostAccess acc s
      t.lat = s.lat ∧ t.seq = s.seq ∧ t.csr.txlen = s.csr.txlen ∧ t.csr.freq = s.csr.freq ∧
      t.csr.pwr = s.csr.pwr ∧ t.mem = s.mem)

/-! ## Interrupts and same-cycle order -/

/-- R251: the interrupt line is the OR of the two enabled sources; an enable masks its source and clearing the source bits
drops the line. -/
def Obligations.InterruptLineIsEnabledSources : Prop :=
  ∀ s : State,
    (irqO s = true ↔ (s.csr.doneIe = true ∧ s.status.done = true) ∨ (s.csr.dioIe = true ∧ s.status.dio = true)) ∧
    (s.rstN = true → irqO (hostWrite 0x008#12 0x0#32 s) = false) ∧
    (s.rstN = true → irqO (hostWrite 0x004#12 0xA#32 s) = false)

/-- R249: in every clk cycle the synchroniser shifts, whatever the host and the sequencer do, and DIO0_LVL is its second
stage. -/
def Obligations.CycleShiftsTheSynchroniser : Prop :=
  ∀ (s t : State) (acc : Option HostAccess) (ends level : Bool), s.rstN = true →
    cycleMove acc ends level s = .next t →
      t.sync = ⟨level, s.sync.s1, s.sync.s2⟩ ∧ (statusWord t).getLsbD 9 = s.sync.s1

/-- R250 and 95 V60.3 (log 12 for the exact cycle): from a quiet input, a level of 1 held for three clk cycles sets the
sticky DIO and DIO0_LVL; a quiet input for three cycles sets nothing. -/
def Obligations.DioEdgeIsSeenWithinThreeCycles : Prop :=
  ∀ (s : State) (rest : List Input) (level : Bool), s.rstN = true → s.sync = ⟨false, false, false⟩ →
    s.inputs = .cycle none false level :: .cycle none false level :: .cycle none false level :: rest →
      ∃ t, steps 3 s = .next t ∧ t.inputs = rest ∧ t.sync.s2 = level ∧ t.status.dio = (s.status.dio || level)

/-- R252: in the cycle in which the sequencer ends a command, a CMD write still finds BUSY = 1 and is dropped with OVR, and
a clear of DONE leaves DONE = 1; in a cycle with an edge, a clear of DIO leaves DIO = 1. (That the edge shows as s2 = 1,
prev = 0 before the cycle is the model's reading: log 12.) -/
def Obligations.SameCycleOrder : Prop :=
  ∀ (s t : State) (w : Word) (level : Bool) (o : Opcode) (n : BitVec 8), s.rstN = true → s.seq = .run o n →
    (cycleMove (some (.write 0x000#12 w)) true level s = .next t →
      t.status.ovr = true ∧ t.lat.cmd = s.lat.cmd) ∧
    (cycleMove (some (.write 0x004#12 w)) true level s = .next t →
      (t.seq = .idle → t.status.done = true) ∧
      (s.sync.s2 = true → s.sync.prev = false → t.status.dio = true))

/-! ## Reset -/

/-- R25, R47, R48, R270: right after reset every host register reads 0, the sequencer is idle, the pins are at their reset
levels, the synchroniser and the hidden registers are 0. -/
def Obligations.ResetStateReadsZero : Prop :=
  AtReset State.reset ∧
  (∀ a : HostAddr, a.toNat % 4 = 0 → a.toNat < 0x048 → (hostRead a State.reset).bus = ⟨0#32, false⟩) ∧
  irqO State.reset = false ∧ State.reset.spi.csN = true ∧ State.reset.spi.sck = false ∧
  State.reset.spi.mosi = false ∧ State.reset.resetN = true

/-- R270, R273: when `rst_n` falls, in whatever state and whatever is running, every piece of block state takes its reset
value and the interrupt line is 0, while the chip, the configuration and the observation are untouched; it keeps those
values on deassertion. (What a step that reset cuts short leaves in the chip and the observation is the model's choice:
log 14.) -/
def Obligations.BlockResetTakesResetValues : Prop :=
  (∀ (s : State) (rest : List Input), s.inputs = .rst false :: rest →
    ∃ t, step s = .next t ∧ AtReset t ∧ t.rstN = false ∧ irqO t = false ∧ t.inputs = rest ∧ t.chip = s.chip ∧
      t.par = s.par ∧ t.trace = s.trace) ∧
  (∀ (s : State) (rest : List Input), AtReset s → s.inputs = .rst true :: rest →
    ∃ t, step s = .next t ∧ AtReset t ∧ t.rstN = true ∧ irqO t = false ∧ t.inputs = rest)

/-- R270, R271: while `rst_n` is 0 the sequencer takes no step, host writes and commands have no effect, host reads return 0
without an error, and neither a clk cycle nor an edge of `dio0` moves the DIO0 path; out of reset and idle with nothing scheduled, the block waits. -/
def Obligations.NothingMovesInReset : Prop :=
  (∀ (s : State) (i : Instr) (a : HostAddr) (v : Word), s.rstN = false →
    exec i s = .next s ∧ seqMove s = .next s ∧ sequencerMove s = .next s ∧ timeBaseMove s = .next s ∧
    hostAccess (.read a) s = { s with bus := ⟨0#32, false⟩ } ∧
    (∃ d, hostAccess (.write a v) s = { s with bus := ⟨d, false⟩ }) ∧
    dio0RiseMove s = s ∧
    ∀ (acc : Option HostAccess) (ends level : Bool), ∃ b, cycleMove acc ends level s = .next { s with bus := b }) ∧
  (∀ s : State, Ready s → s.inputs = [] → step s = .next s)

/-! ## Whole-machine rules -/

/-- The invariant holds right after reset. -/
def Obligations.ResetMeetsInvariant : Prop := BlockInvariant State.reset

/-- R23, R35, R36, R37, R39, R43, R45, R47, R143, R184, R201, R243, R270 and the canonical buffer memory: every step keeps
the invariant. -/
def Obligations.StepKeepsInvariant : Prop :=
  ∀ s t : State, BlockInvariant s → step s = .next t → BlockInvariant t

/-- R23, R245: no state that meets the invariant makes the machine stop: every agent's move, every command and every
refused word has a next state. -/
def Obligations.InvariantStatesNeverStop : Prop :=
  ∀ s : State, BlockInvariant s → ∃ t, step s = .next t

/-- R7, R80: no step changes the configuration or takes anything out of the observation. -/
def Obligations.TraceOnlyGrows : Prop :=
  ∀ s t : State, step s = .next t → t.par = s.par ∧ ∃ es, t.trace = s.trace ++ es

/-- R78, R147: whatever step is taken, every transaction it performs that has other than one data byte is addressed to the
FIFO, and none has more than 255; a read records as many bytes as it asked for. -/
def Obligations.BurstsGoToTheFifo : Prop :=
  ∀ s t : State, step s = .next t →
    ∃ es, t.trace = s.trace ++ es ∧ ∀ e ∈ es, burstToFifo s.par e ∧ burstBounded e

/-- R86, R286: one sequencer step performs exactly one transaction, wait or reset event; and while `reset_n` is low it is no
SPI transaction. -/
def Obligations.OneEventPerSequencerStep : Prop :=
  ∀ (s t : State) (o : Opcode) (n : BitVec 8), s.rstN = true → s.seq = .run o n → seqMove s = .next t →
    ∃ e, t.trace = s.trace ++ [e] ∧ (BlockInvariant s → s.resetN = false → Event.isTransaction e = false)

/-! ## The wire and the reference chip -/

/-- R120, R121, R146, R290: the bytes a transaction puts on `mosi`, for every parameter record; H = ceil(CLK_HZ / (2·SPI_HZ));
a transaction of k bytes holds `cs_n` at 0 for exactly (16k + 1)·H cycles, `cs_n` is then 1 for 2H cycles, and the other
side, sampling on the rising edges of `sck`, reads the bytes most significant bit first. -/
def Obligations.WaveformCarriesTheBytes : Prop :=
  (∀ (p : Params) (a : ChipAddr) (bytes : List Byte),
    mosiBytes p (.w a bytes) = (a.setWidth 8 ||| p.spiWriteBit) :: bytes ∧
    eventWave p (.w a bytes) = waveform (halfPeriod p) ((a.setWidth 8 ||| p.spiWriteBit) :: bytes)) ∧
  (∀ (p : Params) (a : ChipAddr) (n : Nat) (d : List Byte),
    mosiBytes p (.r a n d) = (a.setWidth 8 &&& p.spiAddrMask) :: List.replicate n p.spiDummy ∧
    eventWave p (.r a n d) =
      waveform (halfPeriod p) ((a.setWidth 8 &&& p.spiAddrMask) :: List.replicate n p.spiDummy)) ∧
  (∀ p : Params, 0 < p.spiHz → 1000 * p.clkKHz ≤ halfPeriod p * (2 * p.spiHz) ∧
    halfPeriod p * (2 * p.spiHz) < 1000 * p.clkKHz + 2 * p.spiHz) ∧
  (∀ (h : Nat) (bytes : List Byte), 0 < h →
    (selectedWave h bytes).length = (16 * bytes.length + 1) * h ∧
    (∀ q ∈ selectedWave h bytes, q.csN = false) ∧
    waveform h bytes = selectedWave h bytes ++ List.replicate (2 * h) ⟨true, false, false⟩ ∧
    sampledBits false (waveform h bytes) = bytes.flatMap fun b => (List.range 8).map fun i => b.getLsbD (7 - i))

/-- R79, R83 of the reference chip (a test harness): with no transmission in progress a read of the interrupt flags changes
nothing; a write of them clears exactly the flags written 1; every other register is as before. -/
def Obligations.ReferenceChipFlagsAreWriteOneToClear : Prop :=
  ∀ (p : Params) (c : RefChip) (v : Byte), p.regs.irqFlags ≠ p.regs.fifo → c.pending = none →
    c.read p p.regs.irqFlags 1 = ([c.reg p.regs.irqFlags], c) ∧
    (c.write p p.regs.irqFlags [v]).reg p.regs.irqFlags = c.reg p.regs.irqFlags &&& ~~~v ∧
    (∀ a, a ≠ p.regs.irqFlags → (c.write p p.regs.irqFlags [v]).reg a = c.reg a)

/-- R146, R121, R49: the wire engine, edge by edge. In time it drives exactly the waveform; at each rising edge `miso` is
shifted in; after k whole bytes the shift register holds the last byte sampled, the bit counter is 0 and the byte counter
k; and a read transaction of the block leaves the last byte the chip returned there. (When the counters step, that they
start at 0, and that the shift register only receives, is the model's reading: log 10.) -/
def Obligations.WireEngineSamplesAndCounts : Prop :=
  (∀ (h : Nat) (out inn : List Byte) (w : Spi), out.length = inn.length → w.sck = false →
    (Spi.cycles h (wireBits out inn) (w.select (nextMosi (wireBits out inn)))).map Spi.pins = selectedWave h out) ∧
  (∀ (miso next : Bool) (w : Spi),
    w.rise miso = { w with sck := true, shift := w.shift.extractLsb' 0 7 ++ BitVec.ofBool miso } ∧
    (w.fall next).sck = false ∧ (w.fall next).mosi = next ∧ (w.fall next).shift = w.shift ∧
    (w.fall next).bitCnt = w.bitCnt + 1#3 ∧
    (w.fall next).byteCnt = w.byteCnt + (if w.bitCnt = 7#3 then 1#9 else 0#9)) ∧
  (∀ (out inn : List Byte) (last : Byte) (w : Spi), out.length = inn.length + 1 →
    let v := Spi.clock (wireBits out (inn ++ [last])) (w.select (nextMosi (wireBits out (inn ++ [last]))))
    v.csN = false ∧ v.sck = false ∧ v.shift = last ∧ v.bitCnt = 0#3 ∧ v.byteCnt = BitVec.ofNat 9 (inn.length + 1)) ∧
  (∀ (a : ChipAddr) (bytes : List Byte) (s : State),
    WiresIdle (spiWrite a bytes s) ∧ (spiWrite a bytes s).spi.bitCnt = 0#3 ∧
    (spiWrite a bytes s).spi.byteCnt = BitVec.ofNat 9 (bytes.length + 1)) ∧
  (∀ (a : ChipAddr) (n : Nat) (b : Byte) (s : State),
    WiresIdle (spiRead a n s) ∧ (spiRead a n s).spi.byteCnt = BitVec.ofNat 9 (n + 1) ∧
    ((spiAnswer a n s).getLast? = some b → (spiRead a n s).spi.shift = b))

/-! ## Host programs -/

/-- R118, R25: READ assigns its variable what the named register reads as and changes no other variable and, but for the
answer on the bus, nothing else (log 27 for the variables); and the offset of every name is that register's. -/
def Obligations.ReadDirectiveAssignsItsVariable : Prop :=
  (∀ (s : State) (p : Params) (r : Nat) (name : HostReg) (rest : List Input),
    s.inputs = (HostLine.read r name).inputs p ++ rest →
      ∃ t, step s = .next t ∧ t.inputs = rest ∧
        Cells.find? t.vars r = some (hostRead (offsetOf name) s).bus.rdata ∧
        (∀ q, q ≠ r → Cells.find? t.vars q = Cells.find? s.vars q) ∧
        t.bus = (hostRead (offsetOf name) s).bus ∧
        { t with vars := s.vars, bus := s.bus, inputs := s.inputs } = s) ∧
  (∀ (s : State) (name : HostReg), s.rstN = true → hostRegAt (offsetOf name) = some name →
    (hostRead (offsetOf name) s).bus = ⟨hostRegValue s name, false⟩) ∧
  (∀ name ∈ namedRegs, hostRegAt (offsetOf name) = some name) ∧
  (∀ x : Nat, x % 4 = 0 → 0x100 ≤ x → x < 0x200 → hostRegAt (offsetOf (.txbuf x)) = some (.txbuf x)) ∧
  (∀ x : Nat, x % 4 = 0 → 0x200 ≤ x → x < 0x300 → hostRegAt (offsetOf (.rxbuf x)) = some (.rxbuf x))

/-- R117, R118: the host bus operations of a command line and of the one-access directives; WAITDONE reads STATUS until
BUSY = 0, letting in between the time base move in a wait and the sequencer otherwise (log 19). -/
def Obligations.HostDirectivesExpand : Prop :=
  (∀ (p : Params) (i : Instr) (n : Nat) (f m : Word) (v : Int) (r : Nat) (name : HostReg),
    (HostLine.command i).accesses p = [.write 0x000#12 (encode i)] ∧
    (HostLine.setlen n).accesses p = [.write 0x010#12 (BitVec.ofNat 32 (n % 65536))] ∧
    (HostLine.setfreq f).accesses p = [.write 0x014#12 f] ∧
    (HostLine.setpwr v).accesses p = [.write 0x018#12 (BitVec.ofInt 32 v)] ∧
    (HostLine.setie m).accesses p = [.write 0x008#12 m] ∧
    (HostLine.ack m).accesses p = [.write 0x004#12 m] ∧
    (HostLine.read r name).accesses p = [.read (offsetOf name)]) ∧
  (∀ (s : State) (rest : List Input), s.rstN = true → s.inputs = .waitDone :: rest →
    (s.seq = .idle → step s = .next (hostRead 0x004#12 { s with inputs := rest })) ∧
    (InWait s → step s = .next (hostRead 0x004#12 { s with inputs := .timeBase :: .waitDone :: rest })) ∧
    (s.seq ≠ .idle → ¬ InWait s →
      step s = .next (hostRead 0x004#12 { s with inputs := .sequencer :: .waitDone :: rest })))

/-- R118: the writes of a legal LDTX on an idle block put its bytes into TXBUF from index i on, pad the last group of four
with 0x00, and change no other buffer byte and, but for the answer on the bus, nothing else. -/
def Obligations.LdtxStoresItsBytes : Prop :=
  ∀ (p : Params) (i : Nat) (bytes : List Byte) (s : State), Ready s → (HostLine.ldtx i bytes).wf = true →
    let t := ((HostLine.ldtx i bytes).accesses p).foldl (fun u acc => hostAccess acc u) s
    (∀ k b, bytes[k]? = some b → bufByte t (0x100 + i + k) = b) ∧
    (∀ k, bytes.length ≤ k → k < 4 * ((bytes.length + 3) / 4) → bufByte t (0x100 + i + k) = 0x00#8) ∧
    (∀ x, ¬ (0x100 + i ≤ x ∧ x < 0x100 + i + 4 * ((bytes.length + 3) / 4)) → bufByte t x = bufByte s x) ∧
    { t with mem := s.mem, bus := s.bus } = s

/-! ## The moves of the agents -/

/-- R5, R75, R250, R255: each scheduled move, out of reset, is taken off the schedule (log 5) and does its agent's own: a
host access is that access; the sequencer moves at every label but a wait's, the time base at a wait's alone, and the other
of the two leaves the block as it is (log 11); `Dio0Rise` sets DIO and nothing else (log 13); a clk cycle is that cycle;
with nothing scheduled the block moves, whichever of the two is enabled. -/
def Obligations.ScheduledMovesAreTheAgentsOwn : Prop :=
  ∀ (s : State) (rest : List Input), s.rstN = true →
    (∀ acc, s.inputs = .host acc :: rest → step s = .next (hostAccess acc { s with inputs := rest })) ∧
    (s.inputs = .sequencer :: rest →
      (InWait s → step s = .next { s with inputs := rest }) ∧
      (¬ InWait s → step s = seqMove { s with inputs := rest })) ∧
    (s.inputs = .timeBase :: rest →
      (InWait s → step s = seqMove { s with inputs := rest }) ∧
      (¬ InWait s → step s = .next { s with inputs := rest })) ∧
    (s.inputs = .dio0Rise :: rest →
      step s = .next { s with inputs := rest, status := { s.status with dio := true } }) ∧
    (∀ acc ends level, s.inputs = .cycle acc ends level :: rest →
      step s = cycleMove acc ends level { s with inputs := rest }) ∧
    (s.inputs = [] → step s = seqMove s)

end
end

