-- ==== Sys2Proof/Laws/Decode.lean ====
section
/-! SUPPORT. The laws of the command word's fields and of the opcode numbers. -/

namespace Sys2Proof

@[simp] theorem Opcode.ofByte_toByte (o : Opcode) : Opcode.ofByte o.toByte = some o := by cases o <;> rfl

theorem Opcode.toByte_of_ofByte {b : Byte} {o : Opcode} (h : Opcode.ofByte b = some o) : o.toByte = b := by
  unfold Opcode.ofByte at h
  have key : ∀ n : Nat, b.toNat = n → b = BitVec.ofNat 8 n := fun n hn => by rw [← hn]; simp
  split at h <;> first
    | (rename_i hb; cases h; exact (key _ hb).symm)
    | cases h

@[simp] theorem Opcode.opcode_instr (o : Opcode) (a b : Byte) : (o.instr a b).opcode = o := by cases o <;> rfl

@[simp] theorem Word.opc_encodeFields (o : Opcode) (a b : Byte) : Word.opc (encodeFields o a b) = o.toByte := by
  apply BitVec.eq_of_getLsbD_eq
  intro i hi
  simp only [Word.opc, encodeFields, BitVec.getLsbD_extractLsb', BitVec.getLsbD_append]
  simp [hi]

@[simp] theorem Word.fieldA_encodeFields (o : Opcode) (a b : Byte) :
    Word.fieldA (encodeFields o a b) = (a.setWidth 7).setWidth 8 := by
  apply BitVec.eq_of_getLsbD_eq
  intro i hi
  simp only [Word.fieldA, encodeFields, BitVec.getLsbD_setWidth, BitVec.getLsbD_extractLsb', BitVec.getLsbD_append]
  have h1 : ¬ 8 + i < 8 := by omega
  by_cases h7 : i < 7 <;> simp [h7, hi]

@[simp] theorem Word.fieldB_encodeFields (o : Opcode) (a b : Byte) : Word.fieldB (encodeFields o a b) = b := by
  apply BitVec.eq_of_getLsbD_eq
  intro i hi
  simp only [Word.fieldB, encodeFields, BitVec.getLsbD_extractLsb', BitVec.getLsbD_append]
  have h1 : ¬ 16 + i < 8 := by omega
  have h2 : ¬ 16 + i - 8 < 7 := by omega
  have h3 : ¬ 16 + i - 8 - 7 < 1 := by omega
  have h4 : 16 + i - 8 - 7 - 1 = i := by omega
  simp [h1, h2, h3, h4, hi]

/-- The bytes of a word are put together again (R71). -/
theorem wordOfBytes_wordBytes (w : Word) :
    wordOfBytes (w.extractLsb' 0 8) (w.extractLsb' 8 8) (w.extractLsb' 16 8) (w.extractLsb' 24 8) = w := by
  apply BitVec.eq_of_getLsbD_eq
  intro i hi
  simp only [wordOfBytes, BitVec.getLsbD_append, BitVec.getLsbD_extractLsb']
  by_cases h1 : i < 8
  · simp [h1]
  · by_cases h2 : i - 8 < 8
    · simp [h1, h2]; congr 1; omega
    · by_cases h3 : i - 8 - 8 < 8
      · simp [h1, h2, h3]; congr 1; omega
      · simp [h1, h2, h3]
        have : i - 8 - 8 - 8 < 8 := by omega
        simp [this]; congr 1; omega

/-- The word of four bytes holds them (R71). -/
theorem wordBytes_wordOfBytes (a b c d : Byte) : wordBytes (wordOfBytes a b c d) = [a, b, c, d] := by
  simp only [wordBytes, wordOfBytes, List.cons.injEq, and_true]
  refine ⟨?_, ?_, ?_, ?_⟩ <;> ext i hi <;> simp only [BitVec.getElem_extractLsb', BitVec.getLsbD_append]
  · rw [if_pos (by omega)]
    simp [hi]
  · rw [if_neg (by omega), if_pos (by omega)]
    simp [hi]
  · rw [if_neg (by omega), if_neg (by omega), if_pos (by omega)]
    simp [hi, show 16 + i - 8 - 8 = i by omega]
  · rw [if_neg (by omega), if_neg (by omega), if_neg (by omega)]
    simp [hi, show 24 + i - 8 - 8 - 8 = i by omega]

/-- Decoding the bytes of a word is decoding the word. -/
theorem decode_wordBytes (w : Word) (rest : List Byte) :
    decode (wordBytes w ++ rest) =
      match decodeWord w with
      | .ok i => .ok (i, rest)
      | .error e => .error (.badWord e) := by
  simp only [wordBytes, List.cons_append, List.nil_append, decode, wordOfBytes_wordBytes]
  all_goals cases decodeWord w <;> rfl

end Sys2Proof
end

