-- ==== Sys2Proof/Laws/Memory.lean ====
section
/-! SUPPORT. The laws of lists of cells and of the buffer memory: what a read returns after a write, and that every write keeps the
canonical form. -/

namespace Sys2Proof.Machine

namespace Cells

variable {α : Type}

@[simp] theorem find?_nil (x : Nat) : find? ([] : Cells α) x = none := rfl

theorem find?_write_same (m : Cells α) (x : Nat) (v : α) : find? (write m x v) x = some v := by
  induction m with
  | nil => simp [write, find?]
  | cons c m ih =>
    obtain ⟨a, b⟩ := c
    unfold write
    split
    · simp [find?]
    · split
      · simp [find?]
      · simp [find?, *]

theorem find?_write_other (m : Cells α) {x y : Nat} (v : α) (h : y ≠ x) :
    find? (write m x v) y = find? m y := by
  induction m with
  | nil => simp [write, find?, h.symm]
  | cons c m ih =>
    obtain ⟨a, b⟩ := c
    unfold write
    split
    · simp [find?, h.symm]
    · split
      · rename_i hax
        subst hax
        simp [find?, h.symm]
      · simp only [find?]
        rw [ih]

theorem find?_write (m : Cells α) (x y : Nat) (v : α) :
    find? (write m x v) y = if y = x then some v else find? m y := by
  by_cases h : y = x
  · subst h; simp [find?_write_same]
  · simp [h, find?_write_other]

theorem risesFrom_mono {lo lo' : Nat} {m : Cells α} (h : risesFrom lo m = true) (hl : lo' ≤ lo) :
    risesFrom lo' m = true := by
  cases m with
  | nil => rfl
  | cons c m =>
    simp only [risesFrom, Bool.and_eq_true, decide_eq_true_eq] at h ⊢
    exact ⟨by omega, h.2⟩

theorem risesFrom_write {lo : Nat} {m : Cells α} {x : Nat} {v : α} (h : risesFrom lo m = true) (hx : lo ≤ x) :
    risesFrom lo (write m x v) = true := by
  induction m generalizing lo with
  | nil => simp [write, risesFrom, hx]
  | cons c m ih =>
    obtain ⟨a, b⟩ := c
    simp only [risesFrom, Bool.and_eq_true, decide_eq_true_eq] at h
    unfold write
    split
    · simp only [risesFrom, Bool.and_eq_true, decide_eq_true_eq]
      exact ⟨hx, by omega, h.2⟩
    · split
      · rename_i hax
        subst hax
        simp only [risesFrom, Bool.and_eq_true, decide_eq_true_eq]
        exact h
      · simp only [risesFrom, Bool.and_eq_true, decide_eq_true_eq]
        exact ⟨h.1, ih h.2 (by omega)⟩

theorem all_write {p : Nat × α → Bool} {m : Cells α} {x : Nat} {v : α} (h : m.all p = true)
    (hx : p (x, v) = true) : (write m x v).all p = true := by
  induction m with
  | nil => simpa [write] using hx
  | cons c m ih =>
    obtain ⟨a, b⟩ := c
    simp only [List.all_cons, Bool.and_eq_true] at h
    unfold write
    split
    · simp only [List.all_cons, Bool.and_eq_true]; exact ⟨hx, h.1, h.2⟩
    · split
      · simp only [List.all_cons, Bool.and_eq_true]; exact ⟨hx, h.2⟩
      · simp only [List.all_cons, Bool.and_eq_true]; exact ⟨h.1, ih h.2⟩

end Cells

namespace Memory

/-- A byte of a block write reads back; every other address is left alone. -/
theorem find?_writeBytes (vs : List Byte) (m : Memory) (x y : Nat) :
    Cells.find? (writeBytes m x vs) y = if x ≤ y ∧ y < x + vs.length then vs[y - x]? else Cells.find? m y := by
  induction vs generalizing m x with
  | nil => simp [writeBytes]; all_goals omega
  | cons v vs ih =>
    rw [writeBytes, ih, Cells.find?_write]
    by_cases hy : y = x
    · subst hy
      rw [if_neg (by omega), if_pos rfl, if_pos (by simp), Nat.sub_self]
      rfl
    · rw [if_neg hy]
      by_cases h : x + 1 ≤ y ∧ y < x + 1 + vs.length
      · rw [if_pos h, if_pos (by simp only [List.length_cons]; omega),
          show y - x = (y - (x + 1)) + 1 by omega, List.getElem?_cons_succ]
      · rw [if_neg h, if_neg (by simp only [List.length_cons]; omega)]

@[simp] theorem wf_nil : wf [] = true := rfl

/-- Writing a byte of TXBUF or RXBUF keeps the canonical form. -/
theorem wf_write {m : Memory} {x : Nat} {v : Byte} (h : wf m = true) (h1 : 0x100 ≤ x) (h2 : x < 0x300) :
    wf (Cells.write m x v) = true := by
  simp only [wf, Bool.and_eq_true] at h ⊢
  exact ⟨Cells.risesFrom_write h.1 h1, Cells.all_write h.2 (by simpa using h2)⟩

/-- Writing a block that stays inside TXBUF and RXBUF keeps the canonical form. -/
theorem wf_writeBytes (vs : List Byte) {m : Memory} {x : Nat} (h : wf m = true) (h1 : 0x100 ≤ x)
    (h2 : x + vs.length ≤ 0x300) : wf (writeBytes m x vs) = true := by
  induction vs generalizing m x with
  | nil => exact h
  | cons v vs ih =>
    simp only [List.length_cons] at h2
    exact ih (wf_write h h1 (by omega)) (by omega) (by omega)

end Memory

end Sys2Proof.Machine
end

