-- ==== Sys2Proof/Laws/State.lean ====
section
/-! SUPPORT. What each named update does to each field of State: one lemma per field per update, so that no later
proof unfolds a record update. (`spi` after a transaction: Laws/Wire.lean.) -/

namespace Sys2Proof.Machine

variable (s : State)

/-! ### `spiWrite` -/

@[simp] theorem spiWrite_status (a : ChipAddr) (bytes : List Byte) : (spiWrite a bytes s).status = s.status := rfl
@[simp] theorem spiWrite_csr (a : ChipAddr) (bytes : List Byte) : (spiWrite a bytes s).csr = s.csr := rfl
@[simp] theorem spiWrite_lat (a : ChipAddr) (bytes : List Byte) : (spiWrite a bytes s).lat = s.lat := rfl
@[simp] theorem spiWrite_seq (a : ChipAddr) (bytes : List Byte) : (spiWrite a bytes s).seq = s.seq := rfl
@[simp] theorem spiWrite_mem (a : ChipAddr) (bytes : List Byte) : (spiWrite a bytes s).mem = s.mem := rfl
@[simp] theorem spiWrite_resetN (a : ChipAddr) (bytes : List Byte) : (spiWrite a bytes s).resetN = s.resetN := rfl
@[simp] theorem spiWrite_waitCnt (a : ChipAddr) (bytes : List Byte) : (spiWrite a bytes s).waitCnt = s.waitCnt := rfl
@[simp] theorem spiWrite_sync (a : ChipAddr) (bytes : List Byte) : (spiWrite a bytes s).sync = s.sync := rfl
@[simp] theorem spiWrite_bus (a : ChipAddr) (bytes : List Byte) : (spiWrite a bytes s).bus = s.bus := rfl
@[simp] theorem spiWrite_vars (a : ChipAddr) (bytes : List Byte) : (spiWrite a bytes s).vars = s.vars := rfl
@[simp] theorem spiWrite_rstN (a : ChipAddr) (bytes : List Byte) : (spiWrite a bytes s).rstN = s.rstN := rfl
@[simp] theorem spiWrite_chip (a : ChipAddr) (bytes : List Byte) : (spiWrite a bytes s).chip = s.chip.write s.par a bytes := rfl
@[simp] theorem spiWrite_par (a : ChipAddr) (bytes : List Byte) : (spiWrite a bytes s).par = s.par := rfl
@[simp] theorem spiWrite_inputs (a : ChipAddr) (bytes : List Byte) : (spiWrite a bytes s).inputs = s.inputs := rfl
@[simp] theorem spiWrite_trace (a : ChipAddr) (bytes : List Byte) : (spiWrite a bytes s).trace = s.trace ++ [.w a bytes] := rfl
@[simp] theorem spiWrite_draws (a : ChipAddr) (bytes : List Byte) : (spiWrite a bytes s).draws = s.draws + bytes.length + 1 := rfl
@[simp] theorem spiWrite_epoch (a : ChipAddr) (bytes : List Byte) : (spiWrite a bytes s).epoch = s.epoch := rfl

/-! ### `spiRead` -/

@[simp] theorem spiRead_status (a : ChipAddr) (n : Nat) : (spiRead a n s).status = s.status := rfl
@[simp] theorem spiRead_csr (a : ChipAddr) (n : Nat) : (spiRead a n s).csr = s.csr := rfl
@[simp] theorem spiRead_lat (a : ChipAddr) (n : Nat) : (spiRead a n s).lat = s.lat := rfl
@[simp] theorem spiRead_seq (a : ChipAddr) (n : Nat) : (spiRead a n s).seq = s.seq := rfl
@[simp] theorem spiRead_mem (a : ChipAddr) (n : Nat) : (spiRead a n s).mem = s.mem := rfl
@[simp] theorem spiRead_resetN (a : ChipAddr) (n : Nat) : (spiRead a n s).resetN = s.resetN := rfl
@[simp] theorem spiRead_waitCnt (a : ChipAddr) (n : Nat) : (spiRead a n s).waitCnt = s.waitCnt := rfl
@[simp] theorem spiRead_sync (a : ChipAddr) (n : Nat) : (spiRead a n s).sync = s.sync := rfl
@[simp] theorem spiRead_bus (a : ChipAddr) (n : Nat) : (spiRead a n s).bus = s.bus := rfl
@[simp] theorem spiRead_vars (a : ChipAddr) (n : Nat) : (spiRead a n s).vars = s.vars := rfl
@[simp] theorem spiRead_rstN (a : ChipAddr) (n : Nat) : (spiRead a n s).rstN = s.rstN := rfl
@[simp] theorem spiRead_chip (a : ChipAddr) (n : Nat) : (spiRead a n s).chip = s.chip.afterRead s.par a n := rfl
@[simp] theorem spiRead_par (a : ChipAddr) (n : Nat) : (spiRead a n s).par = s.par := rfl
@[simp] theorem spiRead_inputs (a : ChipAddr) (n : Nat) : (spiRead a n s).inputs = s.inputs := rfl
@[simp] theorem spiRead_trace (a : ChipAddr) (n : Nat) : (spiRead a n s).trace = s.trace ++ [.r a n (spiAnswer a n s)] := rfl
@[simp] theorem spiRead_draws (a : ChipAddr) (n : Nat) : (spiRead a n s).draws = s.draws + n + 1 := rfl
@[simp] theorem spiRead_epoch (a : ChipAddr) (n : Nat) : (spiRead a n s).epoch = s.epoch := rfl

/-! ### `regWrite` -/

@[simp] theorem regWrite_status (a : ChipAddr) (v : Byte) : (regWrite a v s).status = s.status := rfl
@[simp] theorem regWrite_csr (a : ChipAddr) (v : Byte) : (regWrite a v s).csr = s.csr := rfl
@[simp] theorem regWrite_lat (a : ChipAddr) (v : Byte) : (regWrite a v s).lat = s.lat := rfl
@[simp] theorem regWrite_seq (a : ChipAddr) (v : Byte) : (regWrite a v s).seq = s.seq := rfl
@[simp] theorem regWrite_mem (a : ChipAddr) (v : Byte) : (regWrite a v s).mem = s.mem := rfl
@[simp] theorem regWrite_resetN (a : ChipAddr) (v : Byte) : (regWrite a v s).resetN = s.resetN := rfl
@[simp] theorem regWrite_waitCnt (a : ChipAddr) (v : Byte) : (regWrite a v s).waitCnt = s.waitCnt := rfl
@[simp] theorem regWrite_sync (a : ChipAddr) (v : Byte) : (regWrite a v s).sync = s.sync := rfl
@[simp] theorem regWrite_bus (a : ChipAddr) (v : Byte) : (regWrite a v s).bus = s.bus := rfl
@[simp] theorem regWrite_vars (a : ChipAddr) (v : Byte) : (regWrite a v s).vars = s.vars := rfl
@[simp] theorem regWrite_rstN (a : ChipAddr) (v : Byte) : (regWrite a v s).rstN = s.rstN := rfl
@[simp] theorem regWrite_chip (a : ChipAddr) (v : Byte) : (regWrite a v s).chip = s.chip.write s.par a [v] := rfl
@[simp] theorem regWrite_par (a : ChipAddr) (v : Byte) : (regWrite a v s).par = s.par := rfl
@[simp] theorem regWrite_inputs (a : ChipAddr) (v : Byte) : (regWrite a v s).inputs = s.inputs := rfl
@[simp] theorem regWrite_trace (a : ChipAddr) (v : Byte) : (regWrite a v s).trace = s.trace ++ [.w a [v]] := rfl
@[simp] theorem regWrite_draws (a : ChipAddr) (v : Byte) : (regWrite a v s).draws = s.draws + 2 := rfl
@[simp] theorem regWrite_epoch (a : ChipAddr) (v : Byte) : (regWrite a v s).epoch = s.epoch := rfl

/-! ### `regRead` -/

@[simp] theorem regRead_status (a : ChipAddr) : (regRead a s).status = s.status := rfl
@[simp] theorem regRead_csr (a : ChipAddr) : (regRead a s).csr = s.csr := rfl
@[simp] theorem regRead_lat (a : ChipAddr) : (regRead a s).lat = s.lat := rfl
@[simp] theorem regRead_seq (a : ChipAddr) : (regRead a s).seq = s.seq := rfl
@[simp] theorem regRead_mem (a : ChipAddr) : (regRead a s).mem = s.mem := rfl
@[simp] theorem regRead_resetN (a : ChipAddr) : (regRead a s).resetN = s.resetN := rfl
@[simp] theorem regRead_waitCnt (a : ChipAddr) : (regRead a s).waitCnt = s.waitCnt := rfl
@[simp] theorem regRead_sync (a : ChipAddr) : (regRead a s).sync = s.sync := rfl
@[simp] theorem regRead_bus (a : ChipAddr) : (regRead a s).bus = s.bus := rfl
@[simp] theorem regRead_vars (a : ChipAddr) : (regRead a s).vars = s.vars := rfl
@[simp] theorem regRead_rstN (a : ChipAddr) : (regRead a s).rstN = s.rstN := rfl
@[simp] theorem regRead_chip (a : ChipAddr) : (regRead a s).chip = s.chip.afterRead s.par a 1 := rfl
@[simp] theorem regRead_par (a : ChipAddr) : (regRead a s).par = s.par := rfl
@[simp] theorem regRead_inputs (a : ChipAddr) : (regRead a s).inputs = s.inputs := rfl
@[simp] theorem regRead_trace (a : ChipAddr) : (regRead a s).trace = s.trace ++ [.r a 1 (spiAnswer a 1 s)] := rfl
@[simp] theorem regRead_draws (a : ChipAddr) : (regRead a s).draws = s.draws + 2 := rfl
@[simp] theorem regRead_epoch (a : ChipAddr) : (regRead a s).epoch = s.epoch := rfl

/-! ### `waitMs` -/

@[simp] theorem waitMs_status (m : Nat) : (waitMs m s).status = s.status := rfl
@[simp] theorem waitMs_csr (m : Nat) : (waitMs m s).csr = s.csr := rfl
@[simp] theorem waitMs_lat (m : Nat) : (waitMs m s).lat = s.lat := rfl
@[simp] theorem waitMs_seq (m : Nat) : (waitMs m s).seq = s.seq := rfl
@[simp] theorem waitMs_mem (m : Nat) : (waitMs m s).mem = s.mem := rfl
@[simp] theorem waitMs_spi (m : Nat) : (waitMs m s).spi = s.spi := rfl
@[simp] theorem waitMs_resetN (m : Nat) : (waitMs m s).resetN = s.resetN := rfl
@[simp] theorem waitMs_waitCnt (m : Nat) : (waitMs m s).waitCnt = m * s.par.clkKHz := rfl
@[simp] theorem waitMs_sync (m : Nat) : (waitMs m s).sync = s.sync := rfl
@[simp] theorem waitMs_bus (m : Nat) : (waitMs m s).bus = s.bus := rfl
@[simp] theorem waitMs_vars (m : Nat) : (waitMs m s).vars = s.vars := rfl
@[simp] theorem waitMs_rstN (m : Nat) : (waitMs m s).rstN = s.rstN := rfl
@[simp] theorem waitMs_chip (m : Nat) : (waitMs m s).chip = s.chip := rfl
@[simp] theorem waitMs_par (m : Nat) : (waitMs m s).par = s.par := rfl
@[simp] theorem waitMs_inputs (m : Nat) : (waitMs m s).inputs = s.inputs := rfl
@[simp] theorem waitMs_trace (m : Nat) : (waitMs m s).trace = s.trace ++ [.wait m] := rfl
@[simp] theorem waitMs_draws (m : Nat) : (waitMs m s).draws = s.draws := rfl
@[simp] theorem waitMs_epoch (m : Nat) : (waitMs m s).epoch = s.epoch := rfl

/-! ### `setReset` -/

@[simp] theorem setReset_status (l : Bool) : (setReset l s).status = s.status := rfl
@[simp] theorem setReset_csr (l : Bool) : (setReset l s).csr = s.csr := rfl
@[simp] theorem setReset_lat (l : Bool) : (setReset l s).lat = s.lat := rfl
@[simp] theorem setReset_seq (l : Bool) : (setReset l s).seq = s.seq := rfl
@[simp] theorem setReset_mem (l : Bool) : (setReset l s).mem = s.mem := rfl
@[simp] theorem setReset_spi (l : Bool) : (setReset l s).spi = s.spi := rfl
@[simp] theorem setReset_resetN (l : Bool) : (setReset l s).resetN = l := rfl
@[simp] theorem setReset_waitCnt (l : Bool) : (setReset l s).waitCnt = s.waitCnt := rfl
@[simp] theorem setReset_sync (l : Bool) : (setReset l s).sync = s.sync := rfl
@[simp] theorem setReset_bus (l : Bool) : (setReset l s).bus = s.bus := rfl
@[simp] theorem setReset_vars (l : Bool) : (setReset l s).vars = s.vars := rfl
@[simp] theorem setReset_rstN (l : Bool) : (setReset l s).rstN = s.rstN := rfl
@[simp] theorem setReset_chip (l : Bool) : (setReset l s).chip = s.chip.resetLine s.par l := rfl
@[simp] theorem setReset_par (l : Bool) : (setReset l s).par = s.par := rfl
@[simp] theorem setReset_inputs (l : Bool) : (setReset l s).inputs = s.inputs := rfl
@[simp] theorem setReset_trace (l : Bool) : (setReset l s).trace = s.trace ++ [.reset l] := rfl
@[simp] theorem setReset_draws (l : Bool) : (setReset l s).draws = s.draws := rfl
@[simp] theorem setReset_epoch (l : Bool) : (setReset l s).epoch = s.epoch := rfl

/-! ### `goto` -/

@[simp] theorem goto_status (o : Opcode) (n : BitVec 8) : (goto o n s).status = s.status := rfl
@[simp] theorem goto_csr (o : Opcode) (n : BitVec 8) : (goto o n s).csr = s.csr := rfl
@[simp] theorem goto_lat (o : Opcode) (n : BitVec 8) : (goto o n s).lat = s.lat := rfl
@[simp] theorem goto_seq (o : Opcode) (n : BitVec 8) : (goto o n s).seq = .run o n := rfl
@[simp] theorem goto_mem (o : Opcode) (n : BitVec 8) : (goto o n s).mem = s.mem := rfl
@[simp] theorem goto_spi (o : Opcode) (n : BitVec 8) : (goto o n s).spi = s.spi := rfl
@[simp] theorem goto_resetN (o : Opcode) (n : BitVec 8) : (goto o n s).resetN = s.resetN := rfl
@[simp] theorem goto_waitCnt (o : Opcode) (n : BitVec 8) : (goto o n s).waitCnt = s.waitCnt := rfl
@[simp] theorem goto_sync (o : Opcode) (n : BitVec 8) : (goto o n s).sync = s.sync := rfl
@[simp] theorem goto_bus (o : Opcode) (n : BitVec 8) : (goto o n s).bus = s.bus := rfl
@[simp] theorem goto_vars (o : Opcode) (n : BitVec 8) : (goto o n s).vars = s.vars := rfl
@[simp] theorem goto_rstN (o : Opcode) (n : BitVec 8) : (goto o n s).rstN = s.rstN := rfl
@[simp] theorem goto_chip (o : Opcode) (n : BitVec 8) : (goto o n s).chip = s.chip := rfl
@[simp] theorem goto_par (o : Opcode) (n : BitVec 8) : (goto o n s).par = s.par := rfl
@[simp] theorem goto_inputs (o : Opcode) (n : BitVec 8) : (goto o n s).inputs = s.inputs := rfl
@[simp] theorem goto_trace (o : Opcode) (n : BitVec 8) : (goto o n s).trace = s.trace := rfl
@[simp] theorem goto_draws (o : Opcode) (n : BitVec 8) : (goto o n s).draws = s.draws := rfl
@[simp] theorem goto_epoch (o : Opcode) (n : BitVec 8) : (goto o n s).epoch = s.epoch := rfl

/-! ### `finish` -/

@[simp] theorem finish_status : (finish s).status = { s.status with done := true } := rfl
@[simp] theorem finish_csr : (finish s).csr = s.csr := rfl
@[simp] theorem finish_lat : (finish s).lat = s.lat := rfl
@[simp] theorem finish_seq : (finish s).seq = .idle := rfl
@[simp] theorem finish_mem : (finish s).mem = s.mem := rfl
@[simp] theorem finish_spi : (finish s).spi = s.spi := rfl
@[simp] theorem finish_resetN : (finish s).resetN = s.resetN := rfl
@[simp] theorem finish_waitCnt : (finish s).waitCnt = s.waitCnt := rfl
@[simp] theorem finish_sync : (finish s).sync = s.sync := rfl
@[simp] theorem finish_bus : (finish s).bus = s.bus := rfl
@[simp] theorem finish_vars : (finish s).vars = s.vars := rfl
@[simp] theorem finish_rstN : (finish s).rstN = s.rstN := rfl
@[simp] theorem finish_chip : (finish s).chip = s.chip := rfl
@[simp] theorem finish_par : (finish s).par = s.par := rfl
@[simp] theorem finish_inputs : (finish s).inputs = s.inputs := rfl
@[simp] theorem finish_trace : (finish s).trace = s.trace := rfl
@[simp] theorem finish_draws : (finish s).draws = s.draws := rfl
@[simp] theorem finish_epoch : (finish s).epoch = s.epoch := rfl

/-! ### `latchWord` -/

@[simp] theorem latchWord_status (w : Word) : (latchWord w s).status = { s.status with done := false, errCode := .none } := rfl
@[simp] theorem latchWord_csr (w : Word) : (latchWord w s).csr = s.csr := rfl
@[simp] theorem latchWord_lat (w : Word) : (latchWord w s).lat = { s.lat with cmd := w } := rfl
@[simp] theorem latchWord_seq (w : Word) : (latchWord w s).seq = s.seq := rfl
@[simp] theorem latchWord_mem (w : Word) : (latchWord w s).mem = s.mem := rfl
@[simp] theorem latchWord_spi (w : Word) : (latchWord w s).spi = s.spi := rfl
@[simp] theorem latchWord_resetN (w : Word) : (latchWord w s).resetN = s.resetN := rfl
@[simp] theorem latchWord_waitCnt (w : Word) : (latchWord w s).waitCnt = s.waitCnt := rfl
@[simp] theorem latchWord_sync (w : Word) : (latchWord w s).sync = s.sync := rfl
@[simp] theorem latchWord_bus (w : Word) : (latchWord w s).bus = s.bus := rfl
@[simp] theorem latchWord_vars (w : Word) : (latchWord w s).vars = s.vars := rfl
@[simp] theorem latchWord_rstN (w : Word) : (latchWord w s).rstN = s.rstN := rfl
@[simp] theorem latchWord_chip (w : Word) : (latchWord w s).chip = s.chip := rfl
@[simp] theorem latchWord_par (w : Word) : (latchWord w s).par = s.par := rfl
@[simp] theorem latchWord_inputs (w : Word) : (latchWord w s).inputs = s.inputs := rfl
@[simp] theorem latchWord_trace (w : Word) : (latchWord w s).trace = s.trace := rfl
@[simp] theorem latchWord_draws (w : Word) : (latchWord w s).draws = s.draws := rfl
@[simp] theorem latchWord_epoch (w : Word) : (latchWord w s).epoch = s.epoch := rfl

/-! ### `cmdError` -/

@[simp] theorem cmdError_status (c : ErrCode) : (cmdError c s).status = { s.status with done := true, errCode := c } := rfl
@[simp] theorem cmdError_csr (c : ErrCode) : (cmdError c s).csr = s.csr := rfl
@[simp] theorem cmdError_lat (c : ErrCode) : (cmdError c s).lat = s.lat := rfl
@[simp] theorem cmdError_seq (c : ErrCode) : (cmdError c s).seq = .idle := rfl
@[simp] theorem cmdError_mem (c : ErrCode) : (cmdError c s).mem = s.mem := rfl
@[simp] theorem cmdError_spi (c : ErrCode) : (cmdError c s).spi = s.spi := rfl
@[simp] theorem cmdError_resetN (c : ErrCode) : (cmdError c s).resetN = s.resetN := rfl
@[simp] theorem cmdError_waitCnt (c : ErrCode) : (cmdError c s).waitCnt = s.waitCnt := rfl
@[simp] theorem cmdError_sync (c : ErrCode) : (cmdError c s).sync = s.sync := rfl
@[simp] theorem cmdError_bus (c : ErrCode) : (cmdError c s).bus = s.bus := rfl
@[simp] theorem cmdError_vars (c : ErrCode) : (cmdError c s).vars = s.vars := rfl
@[simp] theorem cmdError_rstN (c : ErrCode) : (cmdError c s).rstN = s.rstN := rfl
@[simp] theorem cmdError_chip (c : ErrCode) : (cmdError c s).chip = s.chip := rfl
@[simp] theorem cmdError_par (c : ErrCode) : (cmdError c s).par = s.par := rfl
@[simp] theorem cmdError_inputs (c : ErrCode) : (cmdError c s).inputs = s.inputs := rfl
@[simp] theorem cmdError_trace (c : ErrCode) : (cmdError c s).trace = s.trace := rfl
@[simp] theorem cmdError_draws (c : ErrCode) : (cmdError c s).draws = s.draws := rfl
@[simp] theorem cmdError_epoch (c : ErrCode) : (cmdError c s).epoch = s.epoch := rfl

/-! ### `accept` -/

@[simp] theorem accept_status (o : Opcode) : (accept o s).status = s.status := rfl
@[simp] theorem accept_csr (o : Opcode) : (accept o s).csr = s.csr := rfl
@[simp] theorem accept_lat (o : Opcode) : (accept o s).lat = { s.lat with txlen := s.csr.txlen, freq := s.csr.freq, pwr := s.csr.pwr } := rfl
@[simp] theorem accept_seq (o : Opcode) : (accept o s).seq = .run o 0#8 := rfl
@[simp] theorem accept_mem (o : Opcode) : (accept o s).mem = s.mem := rfl
@[simp] theorem accept_spi (o : Opcode) : (accept o s).spi = s.spi := rfl
@[simp] theorem accept_resetN (o : Opcode) : (accept o s).resetN = s.resetN := rfl
@[simp] theorem accept_waitCnt (o : Opcode) : (accept o s).waitCnt = s.waitCnt := rfl
@[simp] theorem accept_sync (o : Opcode) : (accept o s).sync = s.sync := rfl
@[simp] theorem accept_bus (o : Opcode) : (accept o s).bus = s.bus := rfl
@[simp] theorem accept_vars (o : Opcode) : (accept o s).vars = s.vars := rfl
@[simp] theorem accept_rstN (o : Opcode) : (accept o s).rstN = s.rstN := rfl
@[simp] theorem accept_chip (o : Opcode) : (accept o s).chip = s.chip := rfl
@[simp] theorem accept_par (o : Opcode) : (accept o s).par = s.par := rfl
@[simp] theorem accept_inputs (o : Opcode) : (accept o s).inputs = s.inputs := rfl
@[simp] theorem accept_trace (o : Opcode) : (accept o s).trace = s.trace := rfl
@[simp] theorem accept_draws (o : Opcode) : (accept o s).draws = s.draws := rfl
@[simp] theorem accept_epoch (o : Opcode) : (accept o s).epoch = s.epoch := rfl

/-! ### `overrun` -/

@[simp] theorem overrun_status : (overrun s).status = { s.status with ovr := true } := rfl
@[simp] theorem overrun_csr : (overrun s).csr = s.csr := rfl
@[simp] theorem overrun_lat : (overrun s).lat = s.lat := rfl
@[simp] theorem overrun_seq : (overrun s).seq = s.seq := rfl
@[simp] theorem overrun_mem : (overrun s).mem = s.mem := rfl
@[simp] theorem overrun_spi : (overrun s).spi = s.spi := rfl
@[simp] theorem overrun_resetN : (overrun s).resetN = s.resetN := rfl
@[simp] theorem overrun_waitCnt : (overrun s).waitCnt = s.waitCnt := rfl
@[simp] theorem overrun_sync : (overrun s).sync = s.sync := rfl
@[simp] theorem overrun_bus : (overrun s).bus = s.bus := rfl
@[simp] theorem overrun_vars : (overrun s).vars = s.vars := rfl
@[simp] theorem overrun_rstN : (overrun s).rstN = s.rstN := rfl
@[simp] theorem overrun_chip : (overrun s).chip = s.chip := rfl
@[simp] theorem overrun_par : (overrun s).par = s.par := rfl
@[simp] theorem overrun_inputs : (overrun s).inputs = s.inputs := rfl
@[simp] theorem overrun_trace : (overrun s).trace = s.trace := rfl
@[simp] theorem overrun_draws : (overrun s).draws = s.draws := rfl
@[simp] theorem overrun_epoch : (overrun s).epoch = s.epoch := rfl

/-! ### `storeRx` -/

@[simp] theorem storeRx_status (i : Nat) (d : List Byte) : (storeRx i d s).status = s.status := rfl
@[simp] theorem storeRx_csr (i : Nat) (d : List Byte) : (storeRx i d s).csr = s.csr := rfl
@[simp] theorem storeRx_lat (i : Nat) (d : List Byte) : (storeRx i d s).lat = s.lat := rfl
@[simp] theorem storeRx_seq (i : Nat) (d : List Byte) : (storeRx i d s).seq = s.seq := rfl
@[simp] theorem storeRx_mem (i : Nat) (d : List Byte) : (storeRx i d s).mem = Memory.writeBytes s.mem (rxBufBase + i) d := rfl
@[simp] theorem storeRx_spi (i : Nat) (d : List Byte) : (storeRx i d s).spi = s.spi := rfl
@[simp] theorem storeRx_resetN (i : Nat) (d : List Byte) : (storeRx i d s).resetN = s.resetN := rfl
@[simp] theorem storeRx_waitCnt (i : Nat) (d : List Byte) : (storeRx i d s).waitCnt = s.waitCnt := rfl
@[simp] theorem storeRx_sync (i : Nat) (d : List Byte) : (storeRx i d s).sync = s.sync := rfl
@[simp] theorem storeRx_bus (i : Nat) (d : List Byte) : (storeRx i d s).bus = s.bus := rfl
@[simp] theorem storeRx_vars (i : Nat) (d : List Byte) : (storeRx i d s).vars = s.vars := rfl
@[simp] theorem storeRx_rstN (i : Nat) (d : List Byte) : (storeRx i d s).rstN = s.rstN := rfl
@[simp] theorem storeRx_chip (i : Nat) (d : List Byte) : (storeRx i d s).chip = s.chip := rfl
@[simp] theorem storeRx_par (i : Nat) (d : List Byte) : (storeRx i d s).par = s.par := rfl
@[simp] theorem storeRx_inputs (i : Nat) (d : List Byte) : (storeRx i d s).inputs = s.inputs := rfl
@[simp] theorem storeRx_trace (i : Nat) (d : List Byte) : (storeRx i d s).trace = s.trace := rfl
@[simp] theorem storeRx_draws (i : Nat) (d : List Byte) : (storeRx i d s).draws = s.draws := rfl
@[simp] theorem storeRx_epoch (i : Nat) (d : List Byte) : (storeRx i d s).epoch = s.epoch := rfl

/-! ### `setRdata` -/

@[simp] theorem setRdata_status (d : Byte) : (setRdata d s).status = s.status := rfl
@[simp] theorem setRdata_csr (d : Byte) : (setRdata d s).csr = { s.csr with rdata := d } := rfl
@[simp] theorem setRdata_lat (d : Byte) : (setRdata d s).lat = s.lat := rfl
@[simp] theorem setRdata_seq (d : Byte) : (setRdata d s).seq = s.seq := rfl
@[simp] theorem setRdata_mem (d : Byte) : (setRdata d s).mem = s.mem := rfl
@[simp] theorem setRdata_spi (d : Byte) : (setRdata d s).spi = s.spi := rfl
@[simp] theorem setRdata_resetN (d : Byte) : (setRdata d s).resetN = s.resetN := rfl
@[simp] theorem setRdata_waitCnt (d : Byte) : (setRdata d s).waitCnt = s.waitCnt := rfl
@[simp] theorem setRdata_sync (d : Byte) : (setRdata d s).sync = s.sync := rfl
@[simp] theorem setRdata_bus (d : Byte) : (setRdata d s).bus = s.bus := rfl
@[simp] theorem setRdata_vars (d : Byte) : (setRdata d s).vars = s.vars := rfl
@[simp] theorem setRdata_rstN (d : Byte) : (setRdata d s).rstN = s.rstN := rfl
@[simp] theorem setRdata_chip (d : Byte) : (setRdata d s).chip = s.chip := rfl
@[simp] theorem setRdata_par (d : Byte) : (setRdata d s).par = s.par := rfl
@[simp] theorem setRdata_inputs (d : Byte) : (setRdata d s).inputs = s.inputs := rfl
@[simp] theorem setRdata_trace (d : Byte) : (setRdata d s).trace = s.trace := rfl
@[simp] theorem setRdata_draws (d : Byte) : (setRdata d s).draws = s.draws := rfl
@[simp] theorem setRdata_epoch (d : Byte) : (setRdata d s).epoch = s.epoch := rfl

/-! ### `sendStart` -/

@[simp] theorem sendStart_status : (sendStart s).status = s.status := rfl
@[simp] theorem sendStart_csr : (sendStart s).csr = { s.csr with txn := BitVec.ofNat 8 (sendLength s.lat.txlen), txwaits := 0#16 } := rfl
@[simp] theorem sendStart_lat : (sendStart s).lat = { s.lat with k := 0#16 } := rfl
@[simp] theorem sendStart_seq : (sendStart s).seq = s.seq := rfl
@[simp] theorem sendStart_mem : (sendStart s).mem = s.mem := rfl
@[simp] theorem sendStart_spi : (sendStart s).spi = s.spi := rfl
@[simp] theorem sendStart_resetN : (sendStart s).resetN = s.resetN := rfl
@[simp] theorem sendStart_waitCnt : (sendStart s).waitCnt = s.waitCnt := rfl
@[simp] theorem sendStart_sync : (sendStart s).sync = s.sync := rfl
@[simp] theorem sendStart_bus : (sendStart s).bus = s.bus := rfl
@[simp] theorem sendStart_vars : (sendStart s).vars = s.vars := rfl
@[simp] theorem sendStart_rstN : (sendStart s).rstN = s.rstN := rfl
@[simp] theorem sendStart_chip : (sendStart s).chip = s.chip := rfl
@[simp] theorem sendStart_par : (sendStart s).par = s.par := rfl
@[simp] theorem sendStart_inputs : (sendStart s).inputs = s.inputs := rfl
@[simp] theorem sendStart_trace : (sendStart s).trace = s.trace := rfl
@[simp] theorem sendStart_draws : (sendStart s).draws = s.draws := rfl
@[simp] theorem sendStart_epoch : (sendStart s).epoch = s.epoch := rfl

/-! ### `setIrqf` -/

@[simp] theorem setIrqf_status (f : Byte) : (setIrqf f s).status = s.status := rfl
@[simp] theorem setIrqf_csr (f : Byte) : (setIrqf f s).csr = { s.csr with irqf := f } := rfl
@[simp] theorem setIrqf_lat (f : Byte) : (setIrqf f s).lat = s.lat := rfl
@[simp] theorem setIrqf_seq (f : Byte) : (setIrqf f s).seq = s.seq := rfl
@[simp] theorem setIrqf_mem (f : Byte) : (setIrqf f s).mem = s.mem := rfl
@[simp] theorem setIrqf_spi (f : Byte) : (setIrqf f s).spi = s.spi := rfl
@[simp] theorem setIrqf_resetN (f : Byte) : (setIrqf f s).resetN = s.resetN := rfl
@[simp] theorem setIrqf_waitCnt (f : Byte) : (setIrqf f s).waitCnt = s.waitCnt := rfl
@[simp] theorem setIrqf_sync (f : Byte) : (setIrqf f s).sync = s.sync := rfl
@[simp] theorem setIrqf_bus (f : Byte) : (setIrqf f s).bus = s.bus := rfl
@[simp] theorem setIrqf_vars (f : Byte) : (setIrqf f s).vars = s.vars := rfl
@[simp] theorem setIrqf_rstN (f : Byte) : (setIrqf f s).rstN = s.rstN := rfl
@[simp] theorem setIrqf_chip (f : Byte) : (setIrqf f s).chip = s.chip := rfl
@[simp] theorem setIrqf_par (f : Byte) : (setIrqf f s).par = s.par := rfl
@[simp] theorem setIrqf_inputs (f : Byte) : (setIrqf f s).inputs = s.inputs := rfl
@[simp] theorem setIrqf_trace (f : Byte) : (setIrqf f s).trace = s.trace := rfl
@[simp] theorem setIrqf_draws (f : Byte) : (setIrqf f s).draws = s.draws := rfl
@[simp] theorem setIrqf_epoch (f : Byte) : (setIrqf f s).epoch = s.epoch := rfl

/-! ### `setTxOutcome` -/

@[simp] theorem setTxOutcome_status (o : TxOutcome) : (setTxOutcome o s).status = { s.status with txOutcome := o } := rfl
@[simp] theorem setTxOutcome_csr (o : TxOutcome) : (setTxOutcome o s).csr = s.csr := rfl
@[simp] theorem setTxOutcome_lat (o : TxOutcome) : (setTxOutcome o s).lat = s.lat := rfl
@[simp] theorem setTxOutcome_seq (o : TxOutcome) : (setTxOutcome o s).seq = s.seq := rfl
@[simp] theorem setTxOutcome_mem (o : TxOutcome) : (setTxOutcome o s).mem = s.mem := rfl
@[simp] theorem setTxOutcome_spi (o : TxOutcome) : (setTxOutcome o s).spi = s.spi := rfl
@[simp] theorem setTxOutcome_resetN (o : TxOutcome) : (setTxOutcome o s).resetN = s.resetN := rfl
@[simp] theorem setTxOutcome_waitCnt (o : TxOutcome) : (setTxOutcome o s).waitCnt = s.waitCnt := rfl
@[simp] theorem setTxOutcome_sync (o : TxOutcome) : (setTxOutcome o s).sync = s.sync := rfl
@[simp] theorem setTxOutcome_bus (o : TxOutcome) : (setTxOutcome o s).bus = s.bus := rfl
@[simp] theorem setTxOutcome_vars (o : TxOutcome) : (setTxOutcome o s).vars = s.vars := rfl
@[simp] theorem setTxOutcome_rstN (o : TxOutcome) : (setTxOutcome o s).rstN = s.rstN := rfl
@[simp] theorem setTxOutcome_chip (o : TxOutcome) : (setTxOutcome o s).chip = s.chip := rfl
@[simp] theorem setTxOutcome_par (o : TxOutcome) : (setTxOutcome o s).par = s.par := rfl
@[simp] theorem setTxOutcome_inputs (o : TxOutcome) : (setTxOutcome o s).inputs = s.inputs := rfl
@[simp] theorem setTxOutcome_trace (o : TxOutcome) : (setTxOutcome o s).trace = s.trace := rfl
@[simp] theorem setTxOutcome_draws (o : TxOutcome) : (setTxOutcome o s).draws = s.draws := rfl
@[simp] theorem setTxOutcome_epoch (o : TxOutcome) : (setTxOutcome o s).epoch = s.epoch := rfl

/-! ### `sendWaited` -/

@[simp] theorem sendWaited_status : (sendWaited s).status = s.status := rfl
@[simp] theorem sendWaited_csr : (sendWaited s).csr = { s.csr with txwaits := s.lat.k + 1#16 } := rfl
@[simp] theorem sendWaited_lat : (sendWaited s).lat = { s.lat with k := s.lat.k + 1#16 } := rfl
@[simp] theorem sendWaited_seq : (sendWaited s).seq = s.seq := rfl
@[simp] theorem sendWaited_mem : (sendWaited s).mem = s.mem := rfl
@[simp] theorem sendWaited_spi : (sendWaited s).spi = s.spi := rfl
@[simp] theorem sendWaited_resetN : (sendWaited s).resetN = s.resetN := rfl
@[simp] theorem sendWaited_waitCnt : (sendWaited s).waitCnt = s.waitCnt := rfl
@[simp] theorem sendWaited_sync : (sendWaited s).sync = s.sync := rfl
@[simp] theorem sendWaited_bus : (sendWaited s).bus = s.bus := rfl
@[simp] theorem sendWaited_vars : (sendWaited s).vars = s.vars := rfl
@[simp] theorem sendWaited_rstN : (sendWaited s).rstN = s.rstN := rfl
@[simp] theorem sendWaited_chip : (sendWaited s).chip = s.chip := rfl
@[simp] theorem sendWaited_par : (sendWaited s).par = s.par := rfl
@[simp] theorem sendWaited_inputs : (sendWaited s).inputs = s.inputs := rfl
@[simp] theorem sendWaited_trace : (sendWaited s).trace = s.trace := rfl
@[simp] theorem sendWaited_draws : (sendWaited s).draws = s.draws := rfl
@[simp] theorem sendWaited_epoch : (sendWaited s).epoch = s.epoch := rfl

/-! ### `setAvail` -/

@[simp] theorem setAvail_status (b : Bool) : (setAvail b s).status = { s.status with avail := b } := rfl
@[simp] theorem setAvail_csr (b : Bool) : (setAvail b s).csr = s.csr := rfl
@[simp] theorem setAvail_lat (b : Bool) : (setAvail b s).lat = s.lat := rfl
@[simp] theorem setAvail_seq (b : Bool) : (setAvail b s).seq = s.seq := rfl
@[simp] theorem setAvail_mem (b : Bool) : (setAvail b s).mem = s.mem := rfl
@[simp] theorem setAvail_spi (b : Bool) : (setAvail b s).spi = s.spi := rfl
@[simp] theorem setAvail_resetN (b : Bool) : (setAvail b s).resetN = s.resetN := rfl
@[simp] theorem setAvail_waitCnt (b : Bool) : (setAvail b s).waitCnt = s.waitCnt := rfl
@[simp] theorem setAvail_sync (b : Bool) : (setAvail b s).sync = s.sync := rfl
@[simp] theorem setAvail_bus (b : Bool) : (setAvail b s).bus = s.bus := rfl
@[simp] theorem setAvail_vars (b : Bool) : (setAvail b s).vars = s.vars := rfl
@[simp] theorem setAvail_rstN (b : Bool) : (setAvail b s).rstN = s.rstN := rfl
@[simp] theorem setAvail_chip (b : Bool) : (setAvail b s).chip = s.chip := rfl
@[simp] theorem setAvail_par (b : Bool) : (setAvail b s).par = s.par := rfl
@[simp] theorem setAvail_inputs (b : Bool) : (setAvail b s).inputs = s.inputs := rfl
@[simp] theorem setAvail_trace (b : Bool) : (setAvail b s).trace = s.trace := rfl
@[simp] theorem setAvail_draws (b : Bool) : (setAvail b s).draws = s.draws := rfl
@[simp] theorem setAvail_epoch (b : Bool) : (setAvail b s).epoch = s.epoch := rfl

/-! ### `setRx` -/

@[simp] theorem setRx_status (b : Bool) (o : RxOutcome) : (setRx b o s).status = { s.status with rxValid := b, rxOutcome := o } := rfl
@[simp] theorem setRx_csr (b : Bool) (o : RxOutcome) : (setRx b o s).csr = s.csr := rfl
@[simp] theorem setRx_lat (b : Bool) (o : RxOutcome) : (setRx b o s).lat = s.lat := rfl
@[simp] theorem setRx_seq (b : Bool) (o : RxOutcome) : (setRx b o s).seq = s.seq := rfl
@[simp] theorem setRx_mem (b : Bool) (o : RxOutcome) : (setRx b o s).mem = s.mem := rfl
@[simp] theorem setRx_spi (b : Bool) (o : RxOutcome) : (setRx b o s).spi = s.spi := rfl
@[simp] theorem setRx_resetN (b : Bool) (o : RxOutcome) : (setRx b o s).resetN = s.resetN := rfl
@[simp] theorem setRx_waitCnt (b : Bool) (o : RxOutcome) : (setRx b o s).waitCnt = s.waitCnt := rfl
@[simp] theorem setRx_sync (b : Bool) (o : RxOutcome) : (setRx b o s).sync = s.sync := rfl
@[simp] theorem setRx_bus (b : Bool) (o : RxOutcome) : (setRx b o s).bus = s.bus := rfl
@[simp] theorem setRx_vars (b : Bool) (o : RxOutcome) : (setRx b o s).vars = s.vars := rfl
@[simp] theorem setRx_rstN (b : Bool) (o : RxOutcome) : (setRx b o s).rstN = s.rstN := rfl
@[simp] theorem setRx_chip (b : Bool) (o : RxOutcome) : (setRx b o s).chip = s.chip := rfl
@[simp] theorem setRx_par (b : Bool) (o : RxOutcome) : (setRx b o s).par = s.par := rfl
@[simp] theorem setRx_inputs (b : Bool) (o : RxOutcome) : (setRx b o s).inputs = s.inputs := rfl
@[simp] theorem setRx_trace (b : Bool) (o : RxOutcome) : (setRx b o s).trace = s.trace := rfl
@[simp] theorem setRx_draws (b : Bool) (o : RxOutcome) : (setRx b o s).draws = s.draws := rfl
@[simp] theorem setRx_epoch (b : Bool) (o : RxOutcome) : (setRx b o s).epoch = s.epoch := rfl

/-! ### `setNb` -/

@[simp] theorem setNb_status (n : Byte) : (setNb n s).status = s.status := rfl
@[simp] theorem setNb_csr (n : Byte) : (setNb n s).csr = { s.csr with rxnb := n } := rfl
@[simp] theorem setNb_lat (n : Byte) : (setNb n s).lat = { s.lat with nb := n } := rfl
@[simp] theorem setNb_seq (n : Byte) : (setNb n s).seq = s.seq := rfl
@[simp] theorem setNb_mem (n : Byte) : (setNb n s).mem = s.mem := rfl
@[simp] theorem setNb_spi (n : Byte) : (setNb n s).spi = s.spi := rfl
@[simp] theorem setNb_resetN (n : Byte) : (setNb n s).resetN = s.resetN := rfl
@[simp] theorem setNb_waitCnt (n : Byte) : (setNb n s).waitCnt = s.waitCnt := rfl
@[simp] theorem setNb_sync (n : Byte) : (setNb n s).sync = s.sync := rfl
@[simp] theorem setNb_bus (n : Byte) : (setNb n s).bus = s.bus := rfl
@[simp] theorem setNb_vars (n : Byte) : (setNb n s).vars = s.vars := rfl
@[simp] theorem setNb_rstN (n : Byte) : (setNb n s).rstN = s.rstN := rfl
@[simp] theorem setNb_chip (n : Byte) : (setNb n s).chip = s.chip := rfl
@[simp] theorem setNb_par (n : Byte) : (setNb n s).par = s.par := rfl
@[simp] theorem setNb_inputs (n : Byte) : (setNb n s).inputs = s.inputs := rfl
@[simp] theorem setNb_trace (n : Byte) : (setNb n s).trace = s.trace := rfl
@[simp] theorem setNb_draws (n : Byte) : (setNb n s).draws = s.draws := rfl
@[simp] theorem setNb_epoch (n : Byte) : (setNb n s).epoch = s.epoch := rfl

/-! ### `setRxAddr` -/

@[simp] theorem setRxAddr_status (a : Byte) : (setRxAddr a s).status = s.status := rfl
@[simp] theorem setRxAddr_csr (a : Byte) : (setRxAddr a s).csr = s.csr := rfl
@[simp] theorem setRxAddr_lat (a : Byte) : (setRxAddr a s).lat = { s.lat with rxAddr := a } := rfl
@[simp] theorem setRxAddr_seq (a : Byte) : (setRxAddr a s).seq = s.seq := rfl
@[simp] theorem setRxAddr_mem (a : Byte) : (setRxAddr a s).mem = s.mem := rfl
@[simp] theorem setRxAddr_spi (a : Byte) : (setRxAddr a s).spi = s.spi := rfl
@[simp] theorem setRxAddr_resetN (a : Byte) : (setRxAddr a s).resetN = s.resetN := rfl
@[simp] theorem setRxAddr_waitCnt (a : Byte) : (setRxAddr a s).waitCnt = s.waitCnt := rfl
@[simp] theorem setRxAddr_sync (a : Byte) : (setRxAddr a s).sync = s.sync := rfl
@[simp] theorem setRxAddr_bus (a : Byte) : (setRxAddr a s).bus = s.bus := rfl
@[simp] theorem setRxAddr_vars (a : Byte) : (setRxAddr a s).vars = s.vars := rfl
@[simp] theorem setRxAddr_rstN (a : Byte) : (setRxAddr a s).rstN = s.rstN := rfl
@[simp] theorem setRxAddr_chip (a : Byte) : (setRxAddr a s).chip = s.chip := rfl
@[simp] theorem setRxAddr_par (a : Byte) : (setRxAddr a s).par = s.par := rfl
@[simp] theorem setRxAddr_inputs (a : Byte) : (setRxAddr a s).inputs = s.inputs := rfl
@[simp] theorem setRxAddr_trace (a : Byte) : (setRxAddr a s).trace = s.trace := rfl
@[simp] theorem setRxAddr_draws (a : Byte) : (setRxAddr a s).draws = s.draws := rfl
@[simp] theorem setRxAddr_epoch (a : Byte) : (setRxAddr a s).epoch = s.epoch := rfl

/-! ### `setRxlen` -/

@[simp] theorem setRxlen_status (n : Byte) : (setRxlen n s).status = s.status := rfl
@[simp] theorem setRxlen_csr (n : Byte) : (setRxlen n s).csr = { s.csr with rxlen := n } := rfl
@[simp] theorem setRxlen_lat (n : Byte) : (setRxlen n s).lat = s.lat := rfl
@[simp] theorem setRxlen_seq (n : Byte) : (setRxlen n s).seq = s.seq := rfl
@[simp] theorem setRxlen_mem (n : Byte) : (setRxlen n s).mem = s.mem := rfl
@[simp] theorem setRxlen_spi (n : Byte) : (setRxlen n s).spi = s.spi := rfl
@[simp] theorem setRxlen_resetN (n : Byte) : (setRxlen n s).resetN = s.resetN := rfl
@[simp] theorem setRxlen_waitCnt (n : Byte) : (setRxlen n s).waitCnt = s.waitCnt := rfl
@[simp] theorem setRxlen_sync (n : Byte) : (setRxlen n s).sync = s.sync := rfl
@[simp] theorem setRxlen_bus (n : Byte) : (setRxlen n s).bus = s.bus := rfl
@[simp] theorem setRxlen_vars (n : Byte) : (setRxlen n s).vars = s.vars := rfl
@[simp] theorem setRxlen_rstN (n : Byte) : (setRxlen n s).rstN = s.rstN := rfl
@[simp] theorem setRxlen_chip (n : Byte) : (setRxlen n s).chip = s.chip := rfl
@[simp] theorem setRxlen_par (n : Byte) : (setRxlen n s).par = s.par := rfl
@[simp] theorem setRxlen_inputs (n : Byte) : (setRxlen n s).inputs = s.inputs := rfl
@[simp] theorem setRxlen_trace (n : Byte) : (setRxlen n s).trace = s.trace := rfl
@[simp] theorem setRxlen_draws (n : Byte) : (setRxlen n s).draws = s.draws := rfl
@[simp] theorem setRxlen_epoch (n : Byte) : (setRxlen n s).epoch = s.epoch := rfl

/-! ### `recvPayload` -/

@[simp] theorem recvPayload_status (d : List Byte) : (recvPayload d s).status = s.status := rfl
@[simp] theorem recvPayload_csr (d : List Byte) : (recvPayload d s).csr = { s.csr with rxlen := s.lat.nb } := rfl
@[simp] theorem recvPayload_lat (d : List Byte) : (recvPayload d s).lat = s.lat := rfl
@[simp] theorem recvPayload_seq (d : List Byte) : (recvPayload d s).seq = s.seq := rfl
@[simp] theorem recvPayload_mem (d : List Byte) : (recvPayload d s).mem = Memory.writeBytes (Memory.writeBytes s.mem (rxBufBase + 0) d) (rxBufBase + s.lat.nb.toNat) [0x00#8] := rfl
@[simp] theorem recvPayload_spi (d : List Byte) : (recvPayload d s).spi = s.spi := rfl
@[simp] theorem recvPayload_resetN (d : List Byte) : (recvPayload d s).resetN = s.resetN := rfl
@[simp] theorem recvPayload_waitCnt (d : List Byte) : (recvPayload d s).waitCnt = s.waitCnt := rfl
@[simp] theorem recvPayload_sync (d : List Byte) : (recvPayload d s).sync = s.sync := rfl
@[simp] theorem recvPayload_bus (d : List Byte) : (recvPayload d s).bus = s.bus := rfl
@[simp] theorem recvPayload_vars (d : List Byte) : (recvPayload d s).vars = s.vars := rfl
@[simp] theorem recvPayload_rstN (d : List Byte) : (recvPayload d s).rstN = s.rstN := rfl
@[simp] theorem recvPayload_chip (d : List Byte) : (recvPayload d s).chip = s.chip := rfl
@[simp] theorem recvPayload_par (d : List Byte) : (recvPayload d s).par = s.par := rfl
@[simp] theorem recvPayload_inputs (d : List Byte) : (recvPayload d s).inputs = s.inputs := rfl
@[simp] theorem recvPayload_trace (d : List Byte) : (recvPayload d s).trace = s.trace := rfl
@[simp] theorem recvPayload_draws (d : List Byte) : (recvPayload d s).draws = s.draws := rfl
@[simp] theorem recvPayload_epoch (d : List Byte) : (recvPayload d s).epoch = s.epoch := rfl

/-! ### `setRssi` -/

@[simp] theorem setRssi_status (r : Byte) : (setRssi r s).status = s.status := rfl
@[simp] theorem setRssi_csr (r : Byte) : (setRssi r s).csr = { s.csr with rssi := rssiValue r } := rfl
@[simp] theorem setRssi_lat (r : Byte) : (setRssi r s).lat = s.lat := rfl
@[simp] theorem setRssi_seq (r : Byte) : (setRssi r s).seq = s.seq := rfl
@[simp] theorem setRssi_mem (r : Byte) : (setRssi r s).mem = s.mem := rfl
@[simp] theorem setRssi_spi (r : Byte) : (setRssi r s).spi = s.spi := rfl
@[simp] theorem setRssi_resetN (r : Byte) : (setRssi r s).resetN = s.resetN := rfl
@[simp] theorem setRssi_waitCnt (r : Byte) : (setRssi r s).waitCnt = s.waitCnt := rfl
@[simp] theorem setRssi_sync (r : Byte) : (setRssi r s).sync = s.sync := rfl
@[simp] theorem setRssi_bus (r : Byte) : (setRssi r s).bus = s.bus := rfl
@[simp] theorem setRssi_vars (r : Byte) : (setRssi r s).vars = s.vars := rfl
@[simp] theorem setRssi_rstN (r : Byte) : (setRssi r s).rstN = s.rstN := rfl
@[simp] theorem setRssi_chip (r : Byte) : (setRssi r s).chip = s.chip := rfl
@[simp] theorem setRssi_par (r : Byte) : (setRssi r s).par = s.par := rfl
@[simp] theorem setRssi_inputs (r : Byte) : (setRssi r s).inputs = s.inputs := rfl
@[simp] theorem setRssi_trace (r : Byte) : (setRssi r s).trace = s.trace := rfl
@[simp] theorem setRssi_draws (r : Byte) : (setRssi r s).draws = s.draws := rfl
@[simp] theorem setRssi_epoch (r : Byte) : (setRssi r s).epoch = s.epoch := rfl

/-! ### `setSnr` -/

@[simp] theorem setSnr_status (v : Byte) : (setSnr v s).status = s.status := rfl
@[simp] theorem setSnr_csr (v : Byte) : (setSnr v s).csr = { s.csr with snr := v, snrdb := snrDbValue v } := rfl
@[simp] theorem setSnr_lat (v : Byte) : (setSnr v s).lat = s.lat := rfl
@[simp] theorem setSnr_seq (v : Byte) : (setSnr v s).seq = s.seq := rfl
@[simp] theorem setSnr_mem (v : Byte) : (setSnr v s).mem = s.mem := rfl
@[simp] theorem setSnr_spi (v : Byte) : (setSnr v s).spi = s.spi := rfl
@[simp] theorem setSnr_resetN (v : Byte) : (setSnr v s).resetN = s.resetN := rfl
@[simp] theorem setSnr_waitCnt (v : Byte) : (setSnr v s).waitCnt = s.waitCnt := rfl
@[simp] theorem setSnr_sync (v : Byte) : (setSnr v s).sync = s.sync := rfl
@[simp] theorem setSnr_bus (v : Byte) : (setSnr v s).bus = s.bus := rfl
@[simp] theorem setSnr_vars (v : Byte) : (setSnr v s).vars = s.vars := rfl
@[simp] theorem setSnr_rstN (v : Byte) : (setSnr v s).rstN = s.rstN := rfl
@[simp] theorem setSnr_chip (v : Byte) : (setSnr v s).chip = s.chip := rfl
@[simp] theorem setSnr_par (v : Byte) : (setSnr v s).par = s.par := rfl
@[simp] theorem setSnr_inputs (v : Byte) : (setSnr v s).inputs = s.inputs := rfl
@[simp] theorem setSnr_trace (v : Byte) : (setSnr v s).trace = s.trace := rfl
@[simp] theorem setSnr_draws (v : Byte) : (setSnr v s).draws = s.draws := rfl
@[simp] theorem setSnr_epoch (v : Byte) : (setSnr v s).epoch = s.epoch := rfl

/-! ### `initIdentified` -/

@[simp] theorem initIdentified_status (v : Byte) : (initIdentified v s).status = { s.status with chipAbsent := idAbsent v, initDone := true, cfgDone := false } := rfl
@[simp] theorem initIdentified_csr (v : Byte) : (initIdentified v s).csr = s.csr := rfl
@[simp] theorem initIdentified_lat (v : Byte) : (initIdentified v s).lat = s.lat := rfl
@[simp] theorem initIdentified_seq (v : Byte) : (initIdentified v s).seq = s.seq := rfl
@[simp] theorem initIdentified_mem (v : Byte) : (initIdentified v s).mem = s.mem := rfl
@[simp] theorem initIdentified_spi (v : Byte) : (initIdentified v s).spi = s.spi := rfl
@[simp] theorem initIdentified_resetN (v : Byte) : (initIdentified v s).resetN = s.resetN := rfl
@[simp] theorem initIdentified_waitCnt (v : Byte) : (initIdentified v s).waitCnt = s.waitCnt := rfl
@[simp] theorem initIdentified_sync (v : Byte) : (initIdentified v s).sync = s.sync := rfl
@[simp] theorem initIdentified_bus (v : Byte) : (initIdentified v s).bus = s.bus := rfl
@[simp] theorem initIdentified_vars (v : Byte) : (initIdentified v s).vars = s.vars := rfl
@[simp] theorem initIdentified_rstN (v : Byte) : (initIdentified v s).rstN = s.rstN := rfl
@[simp] theorem initIdentified_chip (v : Byte) : (initIdentified v s).chip = s.chip := rfl
@[simp] theorem initIdentified_par (v : Byte) : (initIdentified v s).par = s.par := rfl
@[simp] theorem initIdentified_inputs (v : Byte) : (initIdentified v s).inputs = s.inputs := rfl
@[simp] theorem initIdentified_trace (v : Byte) : (initIdentified v s).trace = s.trace := rfl
@[simp] theorem initIdentified_draws (v : Byte) : (initIdentified v s).draws = s.draws := rfl
@[simp] theorem initIdentified_epoch (v : Byte) : (initIdentified v s).epoch = s.epoch := rfl

/-! ### `configStart` -/

@[simp] theorem configStart_status : (configStart s).status = s.status := rfl
@[simp] theorem configStart_csr : (configStart s).csr = { s.csr with frf := frfValue s.lat.freq, peff := peffValue s.lat.pwr } := rfl
@[simp] theorem configStart_lat : (configStart s).lat = s.lat := rfl
@[simp] theorem configStart_seq : (configStart s).seq = s.seq := rfl
@[simp] theorem configStart_mem : (configStart s).mem = s.mem := rfl
@[simp] theorem configStart_spi : (configStart s).spi = s.spi := rfl
@[simp] theorem configStart_resetN : (configStart s).resetN = s.resetN := rfl
@[simp] theorem configStart_waitCnt : (configStart s).waitCnt = s.waitCnt := rfl
@[simp] theorem configStart_sync : (configStart s).sync = s.sync := rfl
@[simp] theorem configStart_bus : (configStart s).bus = s.bus := rfl
@[simp] theorem configStart_vars : (configStart s).vars = s.vars := rfl
@[simp] theorem configStart_rstN : (configStart s).rstN = s.rstN := rfl
@[simp] theorem configStart_chip : (configStart s).chip = s.chip := rfl
@[simp] theorem configStart_par : (configStart s).par = s.par := rfl
@[simp] theorem configStart_inputs : (configStart s).inputs = s.inputs := rfl
@[simp] theorem configStart_trace : (configStart s).trace = s.trace := rfl
@[simp] theorem configStart_draws : (configStart s).draws = s.draws := rfl
@[simp] theorem configStart_epoch : (configStart s).epoch = s.epoch := rfl

/-! ### `setCfgDone` -/

@[simp] theorem setCfgDone_status : (setCfgDone s).status = { s.status with cfgDone := true } := rfl
@[simp] theorem setCfgDone_csr : (setCfgDone s).csr = s.csr := rfl
@[simp] theorem setCfgDone_lat : (setCfgDone s).lat = s.lat := rfl
@[simp] theorem setCfgDone_seq : (setCfgDone s).seq = s.seq := rfl
@[simp] theorem setCfgDone_mem : (setCfgDone s).mem = s.mem := rfl
@[simp] theorem setCfgDone_spi : (setCfgDone s).spi = s.spi := rfl
@[simp] theorem setCfgDone_resetN : (setCfgDone s).resetN = s.resetN := rfl
@[simp] theorem setCfgDone_waitCnt : (setCfgDone s).waitCnt = s.waitCnt := rfl
@[simp] theorem setCfgDone_sync : (setCfgDone s).sync = s.sync := rfl
@[simp] theorem setCfgDone_bus : (setCfgDone s).bus = s.bus := rfl
@[simp] theorem setCfgDone_vars : (setCfgDone s).vars = s.vars := rfl
@[simp] theorem setCfgDone_rstN : (setCfgDone s).rstN = s.rstN := rfl
@[simp] theorem setCfgDone_chip : (setCfgDone s).chip = s.chip := rfl
@[simp] theorem setCfgDone_par : (setCfgDone s).par = s.par := rfl
@[simp] theorem setCfgDone_inputs : (setCfgDone s).inputs = s.inputs := rfl
@[simp] theorem setCfgDone_trace : (setCfgDone s).trace = s.trace := rfl
@[simp] theorem setCfgDone_draws : (setCfgDone s).draws = s.draws := rfl
@[simp] theorem setCfgDone_epoch : (setCfgDone s).epoch = s.epoch := rfl

/-! ### `respond` -/

@[simp] theorem respond_status (d : Word) (e : Bool) : (respond d e s).status = s.status := rfl
@[simp] theorem respond_csr (d : Word) (e : Bool) : (respond d e s).csr = s.csr := rfl
@[simp] theorem respond_lat (d : Word) (e : Bool) : (respond d e s).lat = s.lat := rfl
@[simp] theorem respond_seq (d : Word) (e : Bool) : (respond d e s).seq = s.seq := rfl
@[simp] theorem respond_mem (d : Word) (e : Bool) : (respond d e s).mem = s.mem := rfl
@[simp] theorem respond_spi (d : Word) (e : Bool) : (respond d e s).spi = s.spi := rfl
@[simp] theorem respond_resetN (d : Word) (e : Bool) : (respond d e s).resetN = s.resetN := rfl
@[simp] theorem respond_waitCnt (d : Word) (e : Bool) : (respond d e s).waitCnt = s.waitCnt := rfl
@[simp] theorem respond_sync (d : Word) (e : Bool) : (respond d e s).sync = s.sync := rfl
@[simp] theorem respond_bus (d : Word) (e : Bool) : (respond d e s).bus = ⟨d, e⟩ := rfl
@[simp] theorem respond_vars (d : Word) (e : Bool) : (respond d e s).vars = s.vars := rfl
@[simp] theorem respond_rstN (d : Word) (e : Bool) : (respond d e s).rstN = s.rstN := rfl
@[simp] theorem respond_chip (d : Word) (e : Bool) : (respond d e s).chip = s.chip := rfl
@[simp] theorem respond_par (d : Word) (e : Bool) : (respond d e s).par = s.par := rfl
@[simp] theorem respond_inputs (d : Word) (e : Bool) : (respond d e s).inputs = s.inputs := rfl
@[simp] theorem respond_trace (d : Word) (e : Bool) : (respond d e s).trace = s.trace := rfl
@[simp] theorem respond_draws (d : Word) (e : Bool) : (respond d e s).draws = s.draws := rfl
@[simp] theorem respond_epoch (d : Word) (e : Bool) : (respond d e s).epoch = s.epoch := rfl

/-! ### `storeVar` -/

@[simp] theorem storeVar_status (r : Nat) : (storeVar r s).status = s.status := rfl
@[simp] theorem storeVar_csr (r : Nat) : (storeVar r s).csr = s.csr := rfl
@[simp] theorem storeVar_lat (r : Nat) : (storeVar r s).lat = s.lat := rfl
@[simp] theorem storeVar_seq (r : Nat) : (storeVar r s).seq = s.seq := rfl
@[simp] theorem storeVar_mem (r : Nat) : (storeVar r s).mem = s.mem := rfl
@[simp] theorem storeVar_spi (r : Nat) : (storeVar r s).spi = s.spi := rfl
@[simp] theorem storeVar_resetN (r : Nat) : (storeVar r s).resetN = s.resetN := rfl
@[simp] theorem storeVar_waitCnt (r : Nat) : (storeVar r s).waitCnt = s.waitCnt := rfl
@[simp] theorem storeVar_sync (r : Nat) : (storeVar r s).sync = s.sync := rfl
@[simp] theorem storeVar_bus (r : Nat) : (storeVar r s).bus = s.bus := rfl
@[simp] theorem storeVar_vars (r : Nat) : (storeVar r s).vars = Cells.write s.vars r s.bus.rdata := rfl
@[simp] theorem storeVar_rstN (r : Nat) : (storeVar r s).rstN = s.rstN := rfl
@[simp] theorem storeVar_chip (r : Nat) : (storeVar r s).chip = s.chip := rfl
@[simp] theorem storeVar_par (r : Nat) : (storeVar r s).par = s.par := rfl
@[simp] theorem storeVar_inputs (r : Nat) : (storeVar r s).inputs = s.inputs := rfl
@[simp] theorem storeVar_trace (r : Nat) : (storeVar r s).trace = s.trace := rfl
@[simp] theorem storeVar_draws (r : Nat) : (storeVar r s).draws = s.draws := rfl
@[simp] theorem storeVar_epoch (r : Nat) : (storeVar r s).epoch = s.epoch := rfl

/-! ### `dioUpdate` -/

@[simp] theorem dioUpdate_status (l : Bool) : (dioUpdate l s).status = { s.status with dio := s.status.dio || (s.sync.s2 && !s.sync.prev) } := rfl
@[simp] theorem dioUpdate_csr (l : Bool) : (dioUpdate l s).csr = s.csr := rfl
@[simp] theorem dioUpdate_lat (l : Bool) : (dioUpdate l s).lat = s.lat := rfl
@[simp] theorem dioUpdate_seq (l : Bool) : (dioUpdate l s).seq = s.seq := rfl
@[simp] theorem dioUpdate_mem (l : Bool) : (dioUpdate l s).mem = s.mem := rfl
@[simp] theorem dioUpdate_spi (l : Bool) : (dioUpdate l s).spi = s.spi := rfl
@[simp] theorem dioUpdate_resetN (l : Bool) : (dioUpdate l s).resetN = s.resetN := rfl
@[simp] theorem dioUpdate_waitCnt (l : Bool) : (dioUpdate l s).waitCnt = s.waitCnt := rfl
@[simp] theorem dioUpdate_sync (l : Bool) : (dioUpdate l s).sync = ⟨l, s.sync.s1, s.sync.s2⟩ := rfl
@[simp] theorem dioUpdate_bus (l : Bool) : (dioUpdate l s).bus = s.bus := rfl
@[simp] theorem dioUpdate_vars (l : Bool) : (dioUpdate l s).vars = s.vars := rfl
@[simp] theorem dioUpdate_rstN (l : Bool) : (dioUpdate l s).rstN = s.rstN := rfl
@[simp] theorem dioUpdate_chip (l : Bool) : (dioUpdate l s).chip = s.chip := rfl
@[simp] theorem dioUpdate_par (l : Bool) : (dioUpdate l s).par = s.par := rfl
@[simp] theorem dioUpdate_inputs (l : Bool) : (dioUpdate l s).inputs = s.inputs := rfl
@[simp] theorem dioUpdate_trace (l : Bool) : (dioUpdate l s).trace = s.trace := rfl
@[simp] theorem dioUpdate_draws (l : Bool) : (dioUpdate l s).draws = s.draws := rfl
@[simp] theorem dioUpdate_epoch (l : Bool) : (dioUpdate l s).epoch = s.epoch := rfl

/-! ### `dio0Rise` -/

@[simp] theorem dio0Rise_status : (dio0Rise s).status = { s.status with dio := true } := rfl
@[simp] theorem dio0Rise_csr : (dio0Rise s).csr = s.csr := rfl
@[simp] theorem dio0Rise_lat : (dio0Rise s).lat = s.lat := rfl
@[simp] theorem dio0Rise_seq : (dio0Rise s).seq = s.seq := rfl
@[simp] theorem dio0Rise_mem : (dio0Rise s).mem = s.mem := rfl
@[simp] theorem dio0Rise_spi : (dio0Rise s).spi = s.spi := rfl
@[simp] theorem dio0Rise_resetN : (dio0Rise s).resetN = s.resetN := rfl
@[simp] theorem dio0Rise_waitCnt : (dio0Rise s).waitCnt = s.waitCnt := rfl
@[simp] theorem dio0Rise_sync : (dio0Rise s).sync = s.sync := rfl
@[simp] theorem dio0Rise_bus : (dio0Rise s).bus = s.bus := rfl
@[simp] theorem dio0Rise_vars : (dio0Rise s).vars = s.vars := rfl
@[simp] theorem dio0Rise_rstN : (dio0Rise s).rstN = s.rstN := rfl
@[simp] theorem dio0Rise_chip : (dio0Rise s).chip = s.chip := rfl
@[simp] theorem dio0Rise_par : (dio0Rise s).par = s.par := rfl
@[simp] theorem dio0Rise_inputs : (dio0Rise s).inputs = s.inputs := rfl
@[simp] theorem dio0Rise_trace : (dio0Rise s).trace = s.trace := rfl
@[simp] theorem dio0Rise_draws : (dio0Rise s).draws = s.draws := rfl
@[simp] theorem dio0Rise_epoch : (dio0Rise s).epoch = s.epoch := rfl

/-! ### `deliverMove` -/

@[simp] theorem deliverMove_status (b : List Byte) (ad rs sn : Byte) : (deliverMove b ad rs sn s).status = s.status := rfl
@[simp] theorem deliverMove_csr (b : List Byte) (ad rs sn : Byte) : (deliverMove b ad rs sn s).csr = s.csr := rfl
@[simp] theorem deliverMove_lat (b : List Byte) (ad rs sn : Byte) : (deliverMove b ad rs sn s).lat = s.lat := rfl
@[simp] theorem deliverMove_seq (b : List Byte) (ad rs sn : Byte) : (deliverMove b ad rs sn s).seq = s.seq := rfl
@[simp] theorem deliverMove_mem (b : List Byte) (ad rs sn : Byte) : (deliverMove b ad rs sn s).mem = s.mem := rfl
@[simp] theorem deliverMove_spi (b : List Byte) (ad rs sn : Byte) : (deliverMove b ad rs sn s).spi = s.spi := rfl
@[simp] theorem deliverMove_resetN (b : List Byte) (ad rs sn : Byte) : (deliverMove b ad rs sn s).resetN = s.resetN := rfl
@[simp] theorem deliverMove_waitCnt (b : List Byte) (ad rs sn : Byte) : (deliverMove b ad rs sn s).waitCnt = s.waitCnt := rfl
@[simp] theorem deliverMove_sync (b : List Byte) (ad rs sn : Byte) : (deliverMove b ad rs sn s).sync = s.sync := rfl
@[simp] theorem deliverMove_bus (b : List Byte) (ad rs sn : Byte) : (deliverMove b ad rs sn s).bus = s.bus := rfl
@[simp] theorem deliverMove_vars (b : List Byte) (ad rs sn : Byte) : (deliverMove b ad rs sn s).vars = s.vars := rfl
@[simp] theorem deliverMove_rstN (b : List Byte) (ad rs sn : Byte) : (deliverMove b ad rs sn s).rstN = s.rstN := rfl
@[simp] theorem deliverMove_chip (b : List Byte) (ad rs sn : Byte) : (deliverMove b ad rs sn s).chip = s.chip.deliver s.par b ad rs sn := rfl
@[simp] theorem deliverMove_par (b : List Byte) (ad rs sn : Byte) : (deliverMove b ad rs sn s).par = s.par := rfl
@[simp] theorem deliverMove_inputs (b : List Byte) (ad rs sn : Byte) : (deliverMove b ad rs sn s).inputs = s.inputs := rfl
@[simp] theorem deliverMove_trace (b : List Byte) (ad rs sn : Byte) : (deliverMove b ad rs sn s).trace = s.trace := rfl
@[simp] theorem deliverMove_draws (b : List Byte) (ad rs sn : Byte) : (deliverMove b ad rs sn s).draws = s.draws := rfl
@[simp] theorem deliverMove_epoch (b : List Byte) (ad rs sn : Byte) : (deliverMove b ad rs sn s).epoch = s.epoch := rfl

end Sys2Proof.Machine
end

