-- ==== Sys2Proof/Laws/Ops.lean ====
section
/-! SUPPORT. What each shared operation can do, said once: the chip's answers, the operands of a latched word, the
submission of a command and the sequencer's run through its labels. -/

namespace Sys2Proof.Machine

/-! ## The chip's answers -/

@[simp] theorem RefChip.read_length (p : Params) (a : ChipAddr) (n : Nat) (c : RefChip) :
    (c.read p a n).1.length = n := by
  induction n generalizing a c with
  | zero => rfl
  | succ n ih => simp [RefChip.read, ih]

/-- A read of `n` bytes returns `n` bytes (R141). -/
@[simp] theorem Chip.answer_length (p : Params) (a : ChipAddr) (n d : Nat) (c : Chip) :
    (c.answer p a n d).length = n := by
  cases c <;> simp [Chip.answer, oracleBytes]

@[simp] theorem spiAnswer_length (a : ChipAddr) (n : Nat) (s : State) : (spiAnswer a n s).length = n := by
  simp [spiAnswer]

/-- A one-byte read returns the byte `RegRead` names (R142). -/
theorem spiAnswer_one (a : ChipAddr) (s : State) : spiAnswer a 1 s = [regAnswer a s] := by
  have h := spiAnswer_length a 1 s
  unfold regAnswer
  match hs : spiAnswer a 1 s with
  | [] => simp [hs] at h
  | [b] => rfl
  | _ :: _ :: _ => simp [hs] at h

/-- What a read returns depends only on the chip, the configuration and the count of free draws. -/
theorem spiAnswer_congr {s t : State} (hc : t.chip = s.chip) (hp : t.par = s.par) (hd : t.draws = s.draws)
    (a : ChipAddr) (n : Nat) : spiAnswer a n t = spiAnswer a n s := by
  simp [spiAnswer, hc, hp, hd]

theorem regAnswer_congr {s t : State} (hc : t.chip = s.chip) (hp : t.par = s.par) (hd : t.draws = s.draws)
    (a : ChipAddr) : regAnswer a t = regAnswer a s := by
  simp [regAnswer, spiAnswer_congr hc hp hd]

@[simp] theorem oracleBytes_length (l : List Byte) (d n : Nat) : (oracleBytes l d n).length = n := by
  simp [oracleBytes]

/-- Scripted answers are given in order (R80). -/
theorem oracleBytes_append (l rest : List Byte) (d : Nat) : oracleBytes (l ++ rest) d l.length = l := by
  apply List.ext_getElem
  · simp
  · intro i h1 h2
    simp [oracleBytes, List.getElem?_append_left h2, List.getElem?_eq_getElem h2]

/-! ## Buffers -/

theorem bufByte_congr {s t : State} (hm : t.mem = s.mem) (he : t.epoch = s.epoch) (x : Nat) :
    bufByte t x = bufByte s x := by
  simp [bufByte, hm, he]

/-- A byte of RXBUF after a block store; every other buffer byte is unchanged. -/
theorem bufByte_storeRx (i : Nat) (d : List Byte) (s : State) (x : Nat) :
    bufByte (storeRx i d s) x =
      if rxBufBase + i ≤ x ∧ x < rxBufBase + i + d.length then (d[x - (rxBufBase + i)]?).getD 0#8
      else bufByte s x := by
  simp only [bufByte, storeRx_mem, storeRx_epoch, Memory.find?_writeBytes]
  split
  · rename_i h
    have : x - (rxBufBase + i) < d.length := by omega
    simp [List.getElem?_eq_getElem this]
  · rfl

/-! ## Operands of a latched word -/

theorem opA_of_cmd {s : State} {o : Opcode} {a b : Byte} (h : s.lat.cmd = encodeFields o a b) :
    opA s = a.setWidth 7 := by
  simp [opA, h]

theorem opB_of_cmd {s : State} {o : Opcode} {a b : Byte} (h : s.lat.cmd = encodeFields o a b) : opB s = b := by
  simp [opB, h]

/-! ## Submission -/

theorem whenReady_idle {s : State} (h1 : s.rstN = true) (h2 : s.seq = .idle) (act : State → State) :
    whenReady s act = act s := by
  simp [whenReady, h1, h2]

theorem whenReady_busy {s : State} {o : Opcode} {n : BitVec 8} (h1 : s.rstN = true) (h2 : s.seq = .run o n)
    (act : State → State) : whenReady s act = overrun s := by
  simp [whenReady, h1, h2]

theorem whenReady_inReset {s : State} (h1 : s.rstN = false) (act : State → State) : whenReady s act = s := by
  simp [whenReady, h1]

/-- Everything a submission of a command can do (R240): it is refused for its frequency, or accepted. -/
theorem beginCommand_cases (w : Word) (i : Instr) (s : State) :
    (i.opcode = .config ∧ freqInRange s.csr.freq = false ∧ beginCommand w i s = cmdError .freqRange (latchWord w s)) ∨
    (¬ (i.opcode = .config ∧ freqInRange s.csr.freq = false) ∧
      beginCommand w i s = accept i.opcode (latchWord w s)) := by
  unfold beginCommand
  split
  · rename_i h; exact .inl ⟨h.1, h.2, rfl⟩
  · rename_i h; exact .inr ⟨h, rfl⟩

theorem beginCommand_accept {w : Word} {i : Instr} {s : State} (h : i.opcode ≠ .config) :
    beginCommand w i s = accept i.opcode (latchWord w s) := by
  unfold beginCommand; rw [if_neg (fun hc => h hc.1)]

/-- Everything a command run by itself can do, by the state it starts in. -/
theorem runCommand_ready {i : Instr} {tbl : StepTable} {fuel : Nat} {s : State} (h1 : s.rstN = true)
    (h2 : s.seq = .idle) : runCommand i tbl fuel s = .next (runTable tbl fuel (beginCommand (encode i) i s)) := by
  simp [runCommand, whenReady, h1, h2]

/-! ## The run through the labels -/

theorem runTable_idle (tbl : StepTable) (fuel : Nat) {s : State} (h : s.seq = .idle) : runTable tbl fuel s = s := by
  cases fuel <;> simp [runTable, h]

theorem runTable_step {tbl : StepTable} {fuel : Nat} {s t : State} {o : Opcode} {n : BitVec 8}
    (h : s.seq = .run o n) (ht : tbl n.toNat s = some t) : runTable tbl (fuel + 1) s = runTable tbl fuel t := by
  simp [runTable, h, ht]

theorem runTable_none {tbl : StepTable} {fuel : Nat} {s : State} {o : Opcode} {n : BitVec 8}
    (h : s.seq = .run o n) (ht : tbl n.toNat s = none) : runTable tbl (fuel + 1) s = s := by
  simp [runTable, h, ht]

end Sys2Proof.Machine
end

