-- ==== Sys2Proof/Laws/PerInstr.lean ====
section
/-! SUPPORT. Statements made of every command, one lemma per constructor of Instr. -/

namespace Sys2Proof.Laws.TableRow

open Sys2Proof

/-- The word written for a command is of that command's row of the opcode table: its match and mask accept it (R114), and
its OPC field is the row's opcode (R111). -/
def Statement (i : Instr) : Prop :=
  i.opcode.rowMatches (encode i) = true ∧ Word.opc (encode i) = i.opcode.toByte

theorem regw (a v : Byte) : Statement (.regw a v) := by
  refine ⟨?_, Word.opc_encodeFields _ _ _⟩
  simp only [Opcode.rowMatches, decide_eq_true_eq]
  apply BitVec.eq_of_getLsbD_eq
  intro i hi
  simp only [encode, encodeFields, Instr.opcode, Opcode.tableRow, Opcode.toByte, BitVec.getLsbD_and,
    BitVec.getLsbD_append]
  interval_cases i <;> simp

theorem regr (a : Byte) : Statement (.regr a) := by
  refine ⟨?_, Word.opc_encodeFields _ _ _⟩
  revert a; decide

theorem fifow (n : Byte) : Statement (.fifow n) := by
  refine ⟨?_, Word.opc_encodeFields _ _ _⟩
  revert n; decide

theorem fifor (n : Byte) : Statement (.fifor n) := by
  refine ⟨?_, Word.opc_encodeFields _ _ _⟩
  revert n; decide

theorem stby : Statement .stby := ⟨rfl, rfl⟩
theorem txm : Statement .txm := ⟨rfl, rfl⟩
theorem rxm : Statement .rxm := ⟨rfl, rfl⟩
theorem send : Statement .send := ⟨rfl, rfl⟩
theorem avail : Statement .avail := ⟨rfl, rfl⟩
theorem recv : Statement .recv := ⟨rfl, rfl⟩
theorem init : Statement .init := ⟨rfl, rfl⟩
theorem config : Statement .config := ⟨rfl, rfl⟩

end Sys2Proof.Laws.TableRow
end

