-- ==== Sys2Proof/Laws/Sequencer.lean ====
section
/-! SUPPORT. Everything one label of any command can do, said once: where it may stand, the one event it performs, the
fields it leaves alone, and the induction over a command's run. -/

namespace Sys2Proof.Machine

/-- A command has no label past its last one (R23). -/
theorem stepsOf_le {o : Opcode} {n : Nat} {s t : State} (h : stepsOf o n s = some t) : n ≤ lastLabel o := by
  by_contra hn
  have hnone : stepsOf o n s = none := by
    cases o <;> simp only [lastLabel, not_le] at hn <;>
      simp only [stepsOf, regwSteps, regrSteps, fifowSteps, fiforSteps, stbySteps, txmSteps, rxmSteps, sendSteps,
        availSteps, recvSteps, initSteps, configSteps] <;>
      split <;> first | rfl | omega
  rw [hnone] at h
  cases h

/-- A command has every label up to its last one (R23). -/
theorem stepsOf_isSome {o : Opcode} {n : Nat} (s : State) (h : n ≤ lastLabel o) : (stepsOf o n s).isSome = true := by
  cases o <;> simp only [lastLabel] at h <;> interval_cases n <;> rfl

/-- The labels at which the sequencer waits for the time base (R255). -/
theorem waiting_iff (s : State) :
    waiting s = true ↔ s.seq = .run .send 8#8 ∨ s.seq = .run .init 2#8 ∨ s.seq = .run .init 4#8 := by
  unfold waiting
  split <;> simp_all

/-- What every label of every command leaves alone. -/
structure LabelFrame (s t : State) : Prop where
  doneIe : t.csr.doneIe = s.csr.doneIe
  dioIe : t.csr.dioIe = s.csr.dioIe
  txlen : t.csr.txlen = s.csr.txlen
  freq : t.csr.freq = s.csr.freq
  pwr : t.csr.pwr = s.csr.pwr
  ovr : t.status.ovr = s.status.ovr
  dio : t.status.dio = s.status.dio
  cmd : t.lat.cmd = s.lat.cmd
  sync : t.sync = s.sync
  bus : t.bus = s.bus
  vars : t.vars = s.vars
  rstN : t.rstN = s.rstN
  par : t.par = s.par
  inputs : t.inputs = s.inputs
  epoch : t.epoch = s.epoch

theorem LabelFrame.refl (s : State) : LabelFrame s s := by constructor <;> rfl

theorem LabelFrame.trans {s t u : State} (h : LabelFrame s t) (h' : LabelFrame t u) : LabelFrame s u :=
  ⟨h'.doneIe.trans h.doneIe, h'.dioIe.trans h.dioIe, h'.txlen.trans h.txlen, h'.freq.trans h.freq,
    h'.pwr.trans h.pwr, h'.ovr.trans h.ovr, h'.dio.trans h.dio, h'.cmd.trans h.cmd, h'.sync.trans h.sync,
    h'.bus.trans h.bus, h'.vars.trans h.vars, h'.rstN.trans h.rstN, h'.par.trans h.par, h'.inputs.trans h.inputs, h'.epoch.trans h.epoch⟩

/-- A label leaves `LabelFrame` alone (R51) and goes to another label of its command or ends it (R23). -/
theorem stepsOf_frame {o : Opcode} {n : Nat} {s t : State} (h : stepsOf o n s = some t) :
    LabelFrame s t ∧ ((t.seq = .idle ∧ t.status.done = true) ∨ ∃ m, t.seq = .run o m) := by
  have hle := stepsOf_le h
  cases o <;> simp only [lastLabel] at hle <;> interval_cases n
  all_goals
    simp only [stepsOf, regwSteps, regrSteps, fifowSteps, fiforSteps, stbySteps, txmSteps, rxmSteps, sendSteps,
      availSteps, recvSteps, initSteps, configSteps, Option.some.injEq] at h
    subst h
  all_goals try simp only [sendPolled, recvFlags, recvLength, recvPayload, availPeeked]
  all_goals repeat' split
  all_goals exact ⟨by constructor <;> rfl, by simp⟩

/-- No label stores below RXBUF (R40: commands only read TXBUF). -/
theorem stepsOf_txbuf {o : Opcode} {n : Nat} {s t : State} (h : stepsOf o n s = some t) {x : Nat} (hx : x < 0x200) :
    bufByte t x = bufByte s x := by
  have hle := stepsOf_le h
  have key : ∀ (i : Nat) (d : List Byte) (u : State), bufByte (storeRx i d u) x = bufByte u x := by
    intro i d u
    rw [bufByte_storeRx, if_neg (by simp only [rxBufBase]; omega)]
  cases o <;> simp only [lastLabel] at hle <;> interval_cases n
  all_goals
    simp only [stepsOf, regwSteps, regrSteps, fifowSteps, fiforSteps, stbySteps, txmSteps, rxmSteps, sendSteps,
      availSteps, recvSteps, initSteps, configSteps, Option.some.injEq] at h
    subst h
  all_goals try simp only [sendPolled, recvFlags, recvLength, recvPayload, availPeeked]
  all_goals repeat' split
  all_goals first
    | exact bufByte_congr rfl rfl x
    | exact (bufByte_congr rfl rfl x).trans ((key _ _ _).trans (bufByte_congr rfl rfl x))
    | exact (bufByte_congr rfl rfl x).trans ((key _ _ _).trans ((key _ _ _).trans (bufByte_congr rfl rfl x)))

/-- A label performs exactly one event (R10, R86); a transaction with other than one data byte is a FIFO burst of at most
255 bytes (R147); no transaction at INIT's labels 1 to 4 (R286). -/
theorem stepsOf_event {o : Opcode} {n : Nat} {s t : State} (h : stepsOf o n s = some t) :
    ∃ e, t.trace = s.trace ++ [e] ∧ burstToFifo s.par e ∧ burstBounded e ∧
      (o = .init → n ≤ 4 → e.isTransaction = false) := by
  have hle := stepsOf_le h
  have hb : ∀ b : Byte, b.toNat ≤ 255 := fun b => by have := b.isLt; omega
  have hm : ∀ m : Nat, min m 255 ≤ 255 := fun m => Nat.min_le_right _ _
  cases o <;> simp only [lastLabel] at hle <;> interval_cases n
  all_goals
    simp only [stepsOf, regwSteps, regrSteps, fifowSteps, fiforSteps, stbySteps, txmSteps, rxmSteps, sendSteps,
      availSteps, recvSteps, initSteps, configSteps, Option.some.injEq] at h
    subst h
  all_goals try simp only [sendPolled, recvFlags, recvLength, recvPayload, availPeeked]
  all_goals repeat' split
  all_goals
    refine ⟨_, rfl, ?_, ?_, ?_⟩ <;>
      simp [burstToFifo, burstBounded, Event.isTransaction, txBytes, sendLength, Config.txFifoMax, hb]

/-- What every label keeps, a command's run keeps. -/
theorem runTable_induct {P : State → Prop} {o : Opcode}
    (step : ∀ s t n, P s → stepsOf o n s = some t → P t) (fuel : Nat) {s : State} (h : P s) :
    P (runTable (stepsOf o) fuel s) := by
  induction fuel generalizing s with
  | zero => exact h
  | succ fuel ih =>
    unfold runTable
    split
    · exact h
    · split
      · rename_i t ht
        exact ih (step _ _ _ h ht)
      · exact h

/-- Every command is its submission and its labels (R240, R10). -/
theorem exec_eq (i : Instr) (s : State) : ∃ fuel,
    exec i s = .next (whenReady s fun s => runTable (stepsOf i.opcode) fuel (beginCommand (encode i) i s)) := by
  cases i <;> exact ⟨_, rfl⟩

end Sys2Proof.Machine
end

