-- ==== Sys2Proof/Laws/Wire.lean ====
section
/-! SUPPORT. What a run of the wire engine does, byte by byte, and that the pins it drives are the waveform. -/

namespace Sys2Proof.Machine

/-! ## The bits of the bytes -/

@[simp] theorem bitsMsbFirst_length (b : Byte) : (bitsMsbFirst b).length = 8 := by simp [bitsMsbFirst]

@[simp] theorem idleMiso_length (d n : Nat) : (idleMiso d n).length = n := by simp [idleMiso]

@[simp] theorem wireBits_nil (inn : List Byte) : wireBits [] inn = [] := rfl

theorem wireBits_cons (o i : Byte) (os is : List Byte) :
    wireBits (o :: os) (i :: is) = wireBits [o] [i] ++ wireBits os is := by
  simp only [wireBits, List.flatMap_cons, List.flatMap_nil, List.append_nil]
  exact List.zipWith_append (by simp)

theorem wireBits_one (o i : Byte) : wireBits [o] [i] =
    [⟨o.getLsbD 7, i.getLsbD 7⟩, ⟨o.getLsbD 6, i.getLsbD 6⟩, ⟨o.getLsbD 5, i.getLsbD 5⟩, ⟨o.getLsbD 4, i.getLsbD 4⟩,
     ⟨o.getLsbD 3, i.getLsbD 3⟩, ⟨o.getLsbD 2, i.getLsbD 2⟩, ⟨o.getLsbD 1, i.getLsbD 1⟩, ⟨o.getLsbD 0, i.getLsbD 0⟩] := rfl

/-- The engine sends the bits it is given. -/
theorem wireBits_mosi {out inn : List Byte} (h : out.length = inn.length) :
    (wireBits out inn).map WireBit.mosi = out.flatMap bitsMsbFirst := by
  induction out generalizing inn with
  | nil => rfl
  | cons o os ih =>
    match inn with
    | [] => simp at h
    | i :: is =>
      rw [wireBits_cons, List.map_append, ih (by simpa using h), List.flatMap_cons]
      rfl

/-! ## A byte, then a transaction -/

/-- Eight samples of `miso`, most significant first, are the byte (R146). -/
theorem shift_byte (x i : Byte) :
    ([7, 6, 5, 4, 3, 2, 1, 0].foldl (fun y k => (BitVec.concat y (i.getLsbD k)).setWidth 8) x) = i := by
  apply BitVec.eq_of_getLsbD_eq
  intro k hk
  interval_cases k <;> simp

/-- One byte through the engine: the shift register holds the byte sampled, the byte counter has counted it. -/
theorem clock_byte (o i : Byte) (rest : List WireBit) (w : Spi) (h : w.bitCnt = 0#3) :
    Spi.clock (wireBits [o] [i] ++ rest) w = Spi.clock rest { w with
      sck := false, mosi := nextMosi rest, shift := i, bitCnt := 0#3, byteCnt := w.byteCnt + 1#9 } := by
  have hs := shift_byte w.shift i
  simp only [List.foldl_cons, List.foldl_nil] at hs
  have he := congrArg (fun x => Spi.clock rest { w with
    sck := false, mosi := nextMosi rest, shift := x, bitCnt := 0#3, byteCnt := w.byteCnt + 1#9 }) hs
  simpa [wireBits_one, Spi.clock, Spi.rise, Spi.fall, h] using he

/-- A run of bytes through the engine. -/
theorem clock_bytes (ps : List (Byte × Byte)) (w : Spi) (h : w.bitCnt = 0#3) :
    let v := Spi.clock (wireBits (ps.map Prod.fst) (ps.map Prod.snd)) w
    v.csN = w.csN ∧ v.bitCnt = 0#3 ∧ v.byteCnt = w.byteCnt + BitVec.ofNat 9 ps.length ∧
      v.shift = (ps.getLast?.map Prod.snd).getD w.shift ∧ (ps ≠ [] → v.sck = false) := by
  induction ps generalizing w with
  | nil => simp [Spi.clock, h]
  | cons p ps ih =>
    have ih := ih { w with
      sck := false, mosi := nextMosi (wireBits (ps.map Prod.fst) (ps.map Prod.snd)), shift := p.2, bitCnt := 0#3,
      byteCnt := w.byteCnt + 1#9 } rfl
    rw [List.map_cons, List.map_cons, wireBits_cons, clock_byte _ _ _ _ h]
    obtain ⟨h1, h2, h3, h4, h5⟩ := ih
    refine ⟨h1, h2, ?_, ?_, fun _ => ?_⟩
    · rw [h3, List.length_cons, BitVec.add_assoc]
      congr 1
      rw [Nat.add_comm, BitVec.ofNat_add]
    · rw [h4]
      cases ps <;> simp [List.getLast?_cons]
    · cases ps with
      | nil => rfl
      | cons q qs => exact h5 (by simp)

/-- A whole transaction, in closed form. -/
theorem transfer_eq {out inn : List Byte} (h : out.length = inn.length) (hne : inn ≠ []) (w : Spi) :
    w.transfer (wireBits out inn) = Spi.afterTransaction inn.length (inn.getLast hne) := by
  have hz1 : (out.zip inn).map Prod.fst = out := List.map_fst_zip (by omega)
  have hz2 : (out.zip inn).map Prod.snd = inn := List.map_snd_zip (by omega)
  obtain ⟨h1, h2, h3, h4, h5⟩ := clock_bytes (out.zip inn) (w.select (nextMosi (wireBits out inn))) rfl
  rw [hz1, hz2] at h1 h2 h3 h4 h5
  have hl : (out.zip inn).length = inn.length := by simp [h]
  have hlast : (out.zip inn).getLast?.map Prod.snd = some (inn.getLast hne) := by
    rw [← List.getLast?_map, hz2, List.getLast?_eq_some_getLast hne]
  rw [hlast] at h4
  rw [hl] at h3
  have h5 := h5 (by intro h0; rw [h0] at hl; exact hne (List.eq_nil_of_length_eq_zero hl.symm))
  unfold Spi.transfer Spi.deselect Spi.afterTransaction
  generalize Spi.clock _ _ = v at *
  obtain ⟨c, k, m, x, b, y⟩ := v
  simp_all [Spi.select]

/-! ## SPI pins and hidden registers after a transaction -/

variable (s : State)

@[simp] theorem spiWrite_spi (a : ChipAddr) (bytes : List Byte) :
    (spiWrite a bytes s).spi = Spi.afterTransaction (bytes.length + 1) (Config.misoIdle (s.draws + bytes.length)) := by
  have hne : idleMiso s.draws (bytes.length + 1) ≠ [] := by simp [idleMiso]
  have := transfer_eq (out := mosiBytes s.par (.w a bytes)) (by simp [mosiBytes]) hne s.spi
  rw [show (spiWrite a bytes s).spi = _ from this]
  simp [idleMiso, List.getLast_map]

@[simp] theorem spiRead_spi (a : ChipAddr) (n : Nat) :
    (spiRead a n s).spi = Spi.afterTransaction (n + 1) ((spiAnswer a n s).getLastD (Config.misoIdle s.draws)) := by
  have hne : idleMiso s.draws 1 ++ spiAnswer a n s ≠ [] := by simp [idleMiso]
  have := transfer_eq (out := mosiBytes s.par (.r a n (spiAnswer a n s))) (by simp [mosiBytes]; omega) hne s.spi
  rw [show (spiRead a n s).spi = _ from this]
  rw [show (idleMiso s.draws 1 ++ spiAnswer a n s).length = n + 1 by simp; omega]
  congr 1
  simp [idleMiso, List.getLast_eq_getLastD]

@[simp] theorem regWrite_spi (a : ChipAddr) (v : Byte) :
    (regWrite a v s).spi = Spi.afterTransaction 2 (Config.misoIdle (s.draws + 1)) := spiWrite_spi s a [v]

@[simp] theorem regRead_spi (a : ChipAddr) : (regRead a s).spi = Spi.afterTransaction 2 (regAnswer a s) := by
  rw [regRead, spiRead_spi, spiAnswer_one]
  rfl

/-! ## The engine in time -/

/-- The pins the engine drives, cycle by cycle. -/
theorem cycles_pins (h : Nat) (bits : List WireBit) {w : Spi} (h1 : w.csN = false) (h2 : w.sck = false)
    (h3 : w.mosi = nextMosi bits) : (Spi.cycles h bits w).map Spi.pins =
      (bits.map WireBit.mosi).flatMap (bitWave h) ++ List.replicate h ⟨false, false, Config.mosiTail⟩ := by
  induction bits generalizing w with
  | nil => simp [Spi.cycles, Spi.pins, h1, h2, h3, nextMosi]
  | cons b rest ih =>
    simp only [Spi.cycles, List.map_append, List.map_cons, List.flatMap_cons, List.map_replicate, bitWave]
    rw [ih (by simpa [Spi.fall, Spi.rise] using h1) rfl rfl]
    simp [Spi.pins, Spi.rise, h1, h2, h3, nextMosi]

end Sys2Proof.Machine
end

