-- ==== Sys2Proof/Tests/Slice0.lean ====
section
/-! SUPPORT. Tests: ill-formed terms, words written out from the spec's encoding, the spec's own vectors
(95_test_vectors.md), and for every statement with hypotheses a witness that meets them. -/

namespace Sys2Proof.Tests

open Sys2Proof Sys2Proof.Machine Sys2Proof.Claims

/-! ## Well-formedness -/

theorem test_wf_refuses_regw_address_0x80 : (Instr.regw 0x80#8 0x00#8).wf = false := by decide
theorem test_wf_refuses_regr_address_0xFF : (Instr.regr 0xFF#8).wf = false := by decide
theorem test_wf_accepts_regw_address_0x7F : (Instr.regw 0x7F#8 0xFF#8).wf = true := by decide
theorem test_wf_refuses_ldtx_off_a_word : (HostLine.ldtx 2 [0x41#8]).wf = false := by decide
theorem test_wf_refuses_ldtx_past_txbuf : (HostLine.ldtx 252 [1#8, 2#8, 3#8, 4#8, 5#8]).wf = false := by decide
theorem test_wf_refuses_command_line : (HostLine.command (.regr 0x80#8)).wf = false := by decide

/-! ## Decoding: words written out bit by bit, `00000000 BBBBBBBB 0AAAAAAA OOOOOOOO` (R111, R112) -/

theorem test_decode_regw : decodeWord 0b00000000111111110001001000000001#32 = .ok (.regw 0x12#8 0xFF#8) := by decide
theorem test_decode_regr : decodeWord 0b00000000000000000100001000000010#32 = .ok (.regr 0x42#8) := by decide
theorem test_decode_fifow : decodeWord 0b00000000000011000000000000000011#32 = .ok (.fifow 12#8) := by decide
theorem test_decode_fifor : decodeWord 0b00000000111111110000000000000100#32 = .ok (.fifor 255#8) := by decide
theorem test_decode_stby : decodeWord 0b00000000000000000000000000010000#32 = .ok .stby := by decide
theorem test_decode_txm : decodeWord 0b00000000000000000000000000010001#32 = .ok .txm := by decide
theorem test_decode_rxm : decodeWord 0b00000000000000000000000000010010#32 = .ok .rxm := by decide
theorem test_decode_send : decodeWord 0b00000000000000000000000000100000#32 = .ok .send := by decide
theorem test_decode_avail : decodeWord 0b00000000000000000000000000110000#32 = .ok .avail := by decide
theorem test_decode_recv : decodeWord 0b00000000000000000000000000110001#32 = .ok .recv := by decide
theorem test_decode_init : decodeWord 0b00000000000000000000000001000000#32 = .ok .init := by decide
theorem test_decode_config : decodeWord 0b00000000000000000000000001000001#32 = .ok .config := by decide

/-- V30.6, V30.7, V30.8. -/
theorem test_decode_illegal_opcodes :
    decodeWord 0x00000000#32 = .error .illegalOpcode ∧ decodeWord 0x00000005#32 = .error .illegalOpcode ∧
      decodeWord 0x00000099#32 = .error .illegalOpcode := by decide

/-- V30.9 to V30.12, V30.14, V30.15. -/
theorem test_decode_reserved_fields :
    decodeWord 0x00014202#32 = .error .reservedField ∧ decodeWord 0x00008001#32 = .error .reservedField ∧
      decodeWord 0x01000010#32 = .error .reservedField ∧ decodeWord 0x00000110#32 = .error .reservedField ∧
      decodeWord 0x00000103#32 = .error .reservedField ∧ decodeWord 0xFF000041#32 = .error .reservedField := by decide

/-- R71: the word's bytes lie little-endian; R110: one word is consumed. -/
theorem test_decode_bytes :
    decode [0x01#8, 0x12#8, 0xFF#8, 0x00#8, 0x77#8] = .ok (.regw 0x12#8 0xFF#8, [0x77#8]) := by decide

theorem test_decode_short : decode [0x10#8, 0x00#8, 0x00#8] = .error .tooShort := by decide

/-- A row whose upper bits are not listed is read with zeros there. -/
theorem test_decodeTableWord : decodeTableWord 8 0x10 = some .stby ∧ decodeTableWord 24 0x0C2201 =
    some (.regw 0x22#8 0x0C#8) ∧ decodeTableWord 32 0x01000010 = none := by decide

/-! ## One step on a small state -/

/-- The default parameters with `CLK_HZ` = 2 MHz (V40.13), so that nothing open is evaluated. -/
def par : Params := { Params.default with clkKHz := 2000 }

/-- The block after reset, on a chip that will answer `answers`. -/
def scripted (answers : List Byte) : State := { State.reset with par := par, chip := .oracle answers }

/-- The block after reset, on the reference chip `c`. -/
def onChip (c : RefChip) : State := { State.reset with par := par, chip := .reference c }

/-- The reference chip just reset, transmit-done after `n` reads. -/
def fresh (n : Nat) : RefChip := RefChip.fresh par (some n)

/-- What `f` says of the state after `i`. -/
def after {α : Type} (i : Instr) (s : State) (f : State → α) : Option α :=
  match exec i s with
  | .next t => some (f t)
  | .fault _ => none
  | .refused _ => none

/-- What `f` says of the state after a step. -/
def afterStep {α : Type} (s : State) (f : State → α) : Option α :=
  match step s with
  | .next t => some (f t)
  | .fault _ => none
  | .refused _ => none

/-- A register of the reference chip in a state. -/
def chipReg (a : ChipAddr) (s : State) : Byte :=
  match s.chip with
  | .reference c => c.reg a
  | .oracle _ => 0xEE#8

/-- V40.1. -/
theorem test_regw : after (.regw 0x22#8 0x0C#8) (onChip (fresh 0)) (fun t => (t.trace, statusWord t, chipReg 0x22#7 t)) =
    some ([.w 0x22#7 [0x0C#8]], 0x00000002#32, 0x0C#8) := by decide

/-- V40.5: the chip's flags are write-one-to-clear. -/
theorem test_regw_clears_flags : after (.regw 0x12#8 0x08#8) (onChip ((fresh 0).setReg 0x12#7 0x48#8))
    (fun t => (t.trace, chipReg 0x12#7 t)) = some ([.w 0x12#7 [0x08#8]], 0x40#8) := by decide

/-- V40.3. -/
theorem test_regr : after (.regr 0x42#8) (onChip (fresh 0)) (fun t => (t.trace, t.csr.rdata)) =
    some ([.r 0x42#7 1 [0x12#8]], 0x12#8) := by decide

/-- V40.7: three bytes of TXBUF at the chip's pointer, which moves on. -/
theorem test_fifow : after (.fifow 3#8)
    { onChip ((fresh 0).setReg 0x0D#7 0x10#8) with mem := [(0x100, 0x41#8), (0x101, 0x42#8), (0x102, 0x43#8)] }
    (fun t => (t.trace, chipReg 0x0D#7 t)) = some ([.w 0x00#7 [0x41#8, 0x42#8, 0x43#8]], 0x13#8) := by decide

/-- V40.9: a count of 0 is the address byte alone. -/
theorem test_fifow_zero : after (.fifow 0#8) (scripted []) (fun t => t.trace) = some [.w 0x00#7 []] := by decide

/-- V40.11. -/
theorem test_fifor : after (.fifor 2#8) (scripted [0x68#8, 0x69#8])
    (fun t => (t.trace, t.mem)) = some ([.r 0x00#7 2 [0x68#8, 0x69#8]], [(0x200, 0x68#8), (0x201, 0x69#8)]) := by decide

/-- V40.10. -/
theorem test_fifor_zero : after (.fifor 0#8) (scripted [0x68#8]) (fun t => (t.trace, t.mem)) =
    some ([.r 0x00#7 0 []], []) := by decide

/-- V41.1. -/
theorem test_stby : after .stby (scripted []) (fun t => (t.trace, statusWord t)) =
    some ([.w 0x01#7 [0x81#8]], 0x00000002#32) := by decide

/-- V41.2. -/
theorem test_txm : after .txm (onChip (fresh 0)) (fun t => (t.trace, chipReg 0x12#7 t)) =
    some ([.w 0x01#7 [0x83#8]], 0x08#8) := by decide

/-- V41.3. -/
theorem test_rxm : after .rxm (scripted []) (fun t => (t.trace, statusWord t)) =
    some ([.w 0x40#7 [0x00#8], .w 0x12#7 [0xFF#8], .w 0x0D#7 [0x00#8], .w 0x01#7 [0x85#8]], 0x00000002#32) := by decide

/-- V42.2: transmit-done at the second read. -/
theorem test_send : after .send
    { onChip (fresh 1) with csr := { Csr.reset with txlen := 2#16 }, mem := [(0x100, 0x41#8), (0x101, 0x42#8)] }
    (fun t => (t.trace.drop 6, statusWord t, t.csr.txn, t.csr.txwaits, t.csr.irqf)) =
    some ([.w 0x01#7 [0x83#8], .r 0x12#7 1 [0x00#8], .wait 1, .r 0x12#7 1 [0x08#8], .w 0x12#7 [0x08#8],
      .w 0x01#7 [0x81#8]], 0x00000402#32, 2#8, 1#16, 0x08#8) := by decide

/-- V42.7: length 0. -/
theorem test_send_empty : after .send (onChip (fresh 0)) (fun t => (t.trace.take 4, statusWord t)) =
    some ([.w 0x01#7 [0x81#8], .w 0x0D#7 [0x00#8], .w 0x00#7 [], .w 0x22#7 [0x00#8]], 0x00000402#32) := by decide

/-- V43.1, and the example of R200. -/
theorem test_avail : after .avail (scripted [0x50#8]) (fun t => (t.trace, statusWord t, t.csr.irqf)) =
    some ([.r 0x12#7 1 [0x50#8]], 0x00000022#32, 0x50#8) := by decide

/-- V43.4. -/
theorem test_recv_accepted : after .recv (onChip ((fresh 0).deliver par [0x09#8] 0x00#8 157#8 0xF8#8))
    (fun t => (t.mem, t.trace.drop 4, statusWord t, t.csr.snrdb)) =
    some ([(0x200, 0x09#8), (0x201, 0x00#8)],
      [.r 0x00#7 1 [0x09#8], .r 0x1A#7 1 [0x9D#8], .r 0x19#7 1 [0xF8#8], .w 0x12#7 [0xFF#8]], 0x00002042#32,
      0xFFFFFFFE#32) := by decide

/-- V43.7: length 64 is rejected. -/
theorem test_recv_rejected : after .recv (scripted [0x40#8, 0x40#8])
    (fun t => (t.trace, statusWord t, t.csr.rxnb)) =
    some ([.r 0x12#7 1 [0x40#8], .r 0x13#7 1 [0x40#8], .w 0x12#7 [0xFF#8]], 0x00003002#32, 64#8) := by decide

/-- V44.1. -/
theorem test_init : after .init (onChip (fresh 0)) (fun t => (t.trace, statusWord t, t.csr.rdata)) =
    some ([.reset true, .reset false, .wait 10, .reset true, .wait 10, .w 0x01#7 [0x00#8], .r 0x42#7 1 [0x12#8]],
      0x00000082#32, 0x12#8) := by decide

/-- V44.2: an identification of 0xFF. -/
theorem test_init_absent : after .init (scripted [0xFF#8]) (fun t => statusWord t) = some 0x00000092#32 := by decide

/-- V44.5. -/
theorem test_config : after .config
    { scripted [] with csr := { Csr.reset with freq := 915000000#32, pwr := 23#32 } }
    (fun t => (t.trace, t.csr.frf, t.csr.peff)) =
    some ([.w 0x01#7 [0x00#8], .w 0x01#7 [0x80#8], .w 0x01#7 [0x81#8], .w 0x06#7 [0xE4#8], .w 0x07#7 [0xC0#8],
      .w 0x08#7 [0x00#8], .w 0x09#7 [0x8F#8], .w 0x4D#7 [0x87#8], .w 0x1D#7 [0x72#8], .w 0x1E#7 [0x74#8],
      .w 0x20#7 [0x00#8], .w 0x21#7 [0x08#8], .w 0x0E#7 [0x00#8], .w 0x0F#7 [0x00#8], .w 0x01#7 [0x81#8]],
      0xE4C000#24, 23#8) := by decide

/-- V44.10: a power of -10 dBm is clamped to 5. -/
theorem test_config_clamps : after .config
    { scripted [] with csr := { Csr.reset with freq := 433000000#32, pwr := BitVec.ofInt 32 (-10) } }
    (fun t => (t.trace.drop 3 |>.take 4, t.csr.peff, statusWord t)) =
    some ([.w 0x06#7 [0x6C#8], .w 0x07#7 [0x40#8], .w 0x08#7 [0x00#8], .w 0x09#7 [0x83#8]], 5#8,
      0x00000102#32) := by decide

/-- V30.16, V44.12: the frequency just out of range. -/
theorem test_config_refused : after .config { scripted [] with csr := { Csr.reset with freq := 1023999970#32 } }
    (fun t => (t.trace, statusWord t, t.lat.cmd)) = some ([], 0x00030002#32, 0x00000041#32) := by decide

/-- V30.15: RESERVED_FIELD wins over FREQ_RANGE (R244). -/
theorem test_priority : afterStep { scripted [] with
      csr := { Csr.reset with freq := 0xFFFFFFFF#32 }, inputs := [.command 0xFF000041#32] }
    (fun t => (t.trace, statusWord t)) = some ([], 0x00020002#32) := by decide

/-! ## Host bus, interrupts, reset -/

/-- V20.1 to V20.3. -/
theorem test_host_errors :
    (hostRead 0x002#12 State.reset).bus = ⟨0#32, true⟩ ∧ (hostRead 0x048#12 State.reset).bus = ⟨0#32, true⟩ ∧
      (hostWrite 0x300#12 1#32 State.reset).bus.err = true := by decide

/-- V20.4 and V20.5. -/
theorem test_host_writes :
    (hostWrite 0x104#12 0x73654D20#32 State.reset).mem =
      [(0x104, 0x20#8), (0x105, 0x4D#8), (0x106, 0x65#8), (0x107, 0x73#8)] ∧
    (hostRead 0x010#12 (hostWrite 0x010#12 0x00012345#32 State.reset)).bus.rdata = 0x00002345#32 := by decide

/-- V20.8. -/
theorem test_status_w1c : statusWord (hostWrite 0x004#12 0xFFFFFFFF#32
    { State.reset with status := { Status.reset with done := true, ovr := true, dio := true } }) = 0#32 := by decide

/-- V20.9, V20.10. -/
theorem test_fsm : (hostRead 0x044#12 { State.reset with seq := .run .send 8#8 }).bus.rdata = 0x00002008#32 ∧
    (hostRead 0x044#12 State.reset).bus.rdata = 0#32 := by decide

/-- A SEND in its wait. -/
def waitingSend : State := { scripted [] with
  seq := .run .send 8#8
  lat := { Latches.reset with cmd := 0x00000020#32 } }

/-- V60.1: the dropped STBY. -/
theorem test_overrun : afterStep { waitingSend with inputs := [.host (.write 0x000#12 0x00000010#32)] }
    (fun t => (t.seq, t.lat.cmd, t.status.ovr, t.trace, t.bus.err)) =
    some (.run .send 8#8, 0x00000020#32, true, [], false) := by decide

/-- R255: only the time base ends a wait. -/
theorem test_wait : afterStep { waitingSend with inputs := [.sequencer] } (fun t => t.seq) = some (.run .send 8#8) ∧
    afterStep { waitingSend with inputs := [.timeBase] } (fun t => (t.seq, t.trace, t.csr.txwaits)) =
      some (.run .send 7#8, [.wait 1], 1#16) := by decide

/-- V60.3. -/
theorem test_irq : irqO { State.reset with csr := { Csr.reset with doneIe := true }, status := { Status.reset with done := true } } = true ∧
    irqO { State.reset with status := { Status.reset with done := true, dio := true } } = false := by decide

/-- V70.2: reset in a wait leaves STATUS 0 and makes no standby write. -/
theorem test_block_reset : afterStep { waitingSend with inputs := [.rst false] }
    (fun t => (statusWord t, t.seq, t.trace, t.lat.cmd, t.rstN)) = some (0#32, .idle, [], 0#32, false) := by decide

/-- R118: the writes of `LDTX 0, [0x41 0x42 0x43]` (P1) and of `SETPWR -10`. -/
theorem test_program_lines :
    (HostLine.ldtx 0 [0x41#8, 0x42#8, 0x43#8]).accesses par = [.write 0x100#12 0x00434241#32] ∧
    (HostLine.setpwr (-10)).accesses par = [.write 0x018#12 0xFFFFFFF6#32] := by decide

/-- V40.13: the bits on `mosi` and the 33 cycles of `cs_n` = 0. -/
theorem test_waveform : halfPeriod par = 1 ∧ mosiBytes par (.w 0x22#7 [0x0C#8]) = [0xA2#8, 0x0C#8] ∧
    (selectedWave 1 [0xA2#8, 0x0C#8]).length = 33 ∧
    [0xA2#8, 0x0C#8].flatMap bitsMsbFirst = [true, false, true, false, false, false, true, false, false, false, false,
      false, true, true, false, false] := by decide

/-- R118: READ keeps the word read, zero-extended, beside the variables already assigned. -/
theorem test_read_directive : afterStep
    { scripted [] with
      csr := { Csr.reset with txlen := 0x2345#16 }
      vars := [(1, 0x11#32), (5, 0x55#32)]
      inputs := (HostLine.read 3 .txlen).inputs par }
    (fun t => (t.vars, t.inputs, t.bus)) =
    some ([(1, 0x11#32), (3, 0x00002345#32), (5, 0x55#32)], [], ⟨0x00002345#32, false⟩) := by decide

/-- R118: `LDTX 4, [5 bytes]`: the second group of four is padded with 0x00. -/
theorem test_ldtx : (((HostLine.ldtx 4 [1#8, 2#8, 3#8, 4#8, 5#8]).accesses par).foldl (fun u acc => hostAccess acc u)
    State.reset).mem = [(0x104, 1#8), (0x105, 2#8), (0x106, 3#8), (0x107, 4#8), (0x108, 5#8), (0x109, 0#8), (0x10A, 0#8),
      (0x10B, 0#8)] := by decide

/-- R146: after three bits of 0xA5 = 0b10100101 on `miso` the shift register holds 0b101. -/
theorem test_engine_bits : (let v := Spi.clock ((wireBits [0x42#8] [0xA5#8]).take 3) (Spi.reset.select false)
    (v.shift, v.bitCnt, v.byteCnt, v.csN, v.sck)) = (0b101#8, 3#3, 0#9, false, false) := by decide

/-- R146: a read of one register, address byte 0x42, with 0xFF and then 0x12 on `miso`. -/
theorem test_engine_bytes : (let v := Spi.reset.transfer (wireBits [0x42#8, 0x00#8] [0xFF#8, 0x12#8])
    (v.shift, v.bitCnt, v.byteCnt, v.csN, v.sck, v.mosi)) = (0x12#8, 0#3, 2#9, true, false, false) := by decide

/-- V43.10, V43.11. -/
theorem test_decoded_signal :
    [0x28#8, 0xF8#8, 0x00#8, 0x03#8, 0x04#8, 0xF9#8, 0xFC#8, 0xFD#8, 0xFF#8, 0x7F#8, 0x80#8].map
      (fun q => (snrDbValue q).toInt) = [10, -2, 0, 0, 1, -1, -1, 0, 0, 31, -32] ∧
    [157#8, 100#8, 0#8, 255#8].map rssiValue = [0x00000000#32, 0xFFFFFFC7#32, 0xFFFFFF63#32, 0x00000062#32] := by decide

/-! ## Witnesses: for every statement with hypotheses, a state and operands that meet all of them -/

theorem reset_ready : Ready State.reset := ⟨rfl, rfl⟩

theorem scripted_ready (answers : List Byte) : Ready (scripted answers) := ⟨rfl, rfl⟩

theorem witness_DecodeEncodeRoundTrip :
    (Instr.regw 0x7F#8 0xFF#8).wf = true ∧ (Instr.regr 0x00#8).wf = true ∧ (Instr.fifor 255#8).wf = true := by decide

theorem witness_EncodeDecodeRoundTrip : decodeWord 0x00807F01#32 = .ok (.regw 0x7F#8 0x80#8) := by decide

/-- One word for each clause: no opcode; bit 15 or bits 31:24; an unused A; an unused B; none of these. -/
theorem witness_DecodingFollowsTheOrderedTests :
    ((0x00000005#32).extractLsb' 0 8).toNat ∉ opcodeNumbers ∧
    (((0xFF000041#32).extractLsb' 0 8).toNat ∈ opcodeNumbers ∧ (0xFF000041#32).extractLsb' 24 8 ≠ 0#8) ∧
    (((0x00008001#32).extractLsb' 0 8).toNat ∈ opcodeNumbers ∧ (0x00008001#32).getLsbD 15 = true) ∧
    (((0x00000103#32).extractLsb' 0 8).toNat ∈ opcodeNumbers ∧ ((0x00000103#32).extractLsb' 0 8).toNat ∉ [0x01, 0x02] ∧
      (0x00000103#32).extractLsb' 8 7 ≠ 0#7) ∧
    (((0x00014202#32).extractLsb' 0 8).toNat ∈ opcodeNumbers ∧
      ((0x00014202#32).extractLsb' 0 8).toNat ∉ [0x01, 0x03, 0x04] ∧ (0x00014202#32).extractLsb' 16 8 ≠ 0#8) ∧
    (((0x00FF7F01#32).extractLsb' 0 8).toNat ∈ opcodeNumbers ∧ (0x00FF7F01#32).extractLsb' 24 8 = 0#8 ∧
      (0x00FF7F01#32).getLsbD 15 = false) := by decide

theorem witness_TableRowsSelectTheDecodedWords : Opcode.rowMatches .regw 0x00FF7F01#32 = true := by decide

/-- Both clauses: a scheduled word, and a table word to place. -/
theorem witness_StepRunsTheDecodedCommand :
    (∃ (s : State) (rest : List Input), s.inputs = .command 0x00000010#32 :: rest ∧
      decode (fetchBytes 0x00000010#32) = .ok (.stby, [])) ∧
    decodeTableWord 32 0x10 = some .stby :=
  ⟨⟨{ State.reset with inputs := [.command 0x00000010#32] }, [], rfl, by decide⟩, by decide⟩

theorem witness_CommandIsSubmissionThenSequencerSteps :
    Instr.config.wf = true ∧ Ready State.reset ∧ State.reset.inputs = [] := ⟨rfl, reset_ready, rfl⟩

theorem witness_RefusedWordHasNoPartialEffect :
    (∃ (s : State) (rest : List Input), Ready s ∧ s.inputs = .command 0x00000099#32 :: rest ∧
      decodeWord 0x00000099#32 = .error .illegalOpcode) ∧
    (∃ s : State, Ready s ∧ s.csr.freq.toNat > 1023999969) :=
  ⟨⟨{ State.reset with inputs := [.command 0x00000099#32] }, [], ⟨rfl, rfl⟩, rfl, by decide⟩,
    ⟨{ State.reset with csr := { Csr.reset with freq := 1023999970#32 } }, ⟨rfl, rfl⟩, by decide⟩⟩

theorem witness_BusyBlockDropsCommands : waitingSend.rstN = true ∧ waitingSend.seq = .run .send 8#8 := ⟨rfl, rfl⟩

theorem witness_RegwWritesOneRegister : Ready State.reset := reset_ready

theorem witness_RegrReadsOneRegister : Ready (scripted [0x12#8]) ∧ (scripted [0x12#8]).chip = .oracle [0x12#8] :=
  ⟨⟨rfl, rfl⟩, rfl⟩

theorem witness_FifowStreamsTxbuf : Ready State.reset := reset_ready

/-- Counts 0 and 2. -/
theorem witness_FiforFillsRxbuf :
    (Ready (scripted [0x68#8, 0x69#8]) ∧ [0x68#8, 0x69#8].length = (2#8).toNat ∧
      (scripted [0x68#8, 0x69#8]).chip = .oracle ([0x68#8, 0x69#8] ++ [])) ∧
    (([] : List Byte).length = (0#8).toNat ∧ (scripted [0x68#8]).chip = .oracle ([] ++ [0x68#8])) :=
  ⟨⟨⟨rfl, rfl⟩, rfl, rfl⟩, rfl, rfl⟩

theorem witness_StbyAndTxmWriteOnlyTheMode : Ready State.reset := reset_ready
theorem witness_RxmPreparesThenEntersReceive : Ready State.reset := reset_ready
theorem witness_SendRunsToDeliveredOrTimeout : Ready State.reset := reset_ready

/-- Delivered at the first read, and at no read within the bound. -/
theorem witness_SendFollowsTheChipsAnswers :
    (Ready (scripted [0x08#8]) ∧ (0x08#8 : Byte) &&& (scripted [0x08#8]).par.irqTxDone ≠ 0#8 ∧
      (scripted [0x08#8]).chip = .oracle ([] ++ 0x08#8 :: [])) ∧
    (Ready (scripted (List.replicate 1000 0x00#8 ++ [0x00#8])) ∧ (List.replicate 1000 (0x00#8 : Byte)).length = 1000 ∧
      (∀ g ∈ List.replicate 1000 (0x00#8 : Byte), g &&& par.irqTxDone = 0#8)) := by
  refine ⟨⟨⟨rfl, rfl⟩, by decide, rfl⟩, ⟨rfl, rfl⟩, List.length_replicate .., ?_⟩
  intro g hg
  rw [List.eq_of_mem_replicate hg]
  decide

/-- The first and the last label. -/
theorem witness_SendStateMachineTable :
    (({ State.reset with seq := .run .send 0#8 } : State).seq = .run .send 0#8 ∧ (0#8).toNat ≤ 10) ∧
    (({ State.reset with seq := .run .send 10#8 } : State).seq = .run .send 10#8 ∧ (10#8).toNat ≤ 10) := by decide

theorem witness_AvailPeeksTheFlags : Ready (scripted [0x40#8]) ∧ (scripted [0x40#8]).chip = .oracle [0x40#8] :=
  ⟨⟨rfl, rfl⟩, rfl⟩

theorem witness_RecvEndsInOneOfThreeOutcomes : Ready State.reset := reset_ready

/-- Each clause: no packet; a count of 0 and of 64; a count of 1 and of 63. -/
theorem witness_RecvFollowsTheChipsAnswers :
    (0x00#8 : Byte) &&& par.irqRxDone = 0#8 ∧ (0x40#8 : Byte) &&& par.irqRxDone ≠ 0#8 ∧
    ¬ (0 < (0#8).toNat ∧ (0#8).toNat < 64) ∧ ¬ (0 < (64#8).toNat ∧ (64#8).toNat < 64) ∧
    (scripted [0x40#8, 64#8]).chip = .oracle (0x40#8 :: 64#8 :: []) ∧
    (0 < (1#8).toNat ∧ (1#8).toNat < 64 ∧ [0x09#8].length = (1#8).toNat) ∧
    (0 < (63#8).toNat ∧ (63#8).toNat < 64 ∧ (List.replicate 63 (0x11#8 : Byte)).length = (63#8).toNat) := by decide

theorem witness_InitResetsAndIdentifiesTheChip : Ready (scripted [0x12#8]) ∧ (scripted [0x12#8]).chip = .oracle [0x12#8] :=
  ⟨⟨rfl, rfl⟩, rfl⟩

/-- The largest accepted frequency, and powers at both ends of the clamp and at the amplifier's switch. -/
theorem witness_ConfigProgramsTheModem :
    (∃ s : State, Ready s ∧ s.csr.freq.toNat ≤ 1023999969 ∧ max 5 (min 23 s.csr.pwr.toInt) = 20) ∧
    (∃ s : State, Ready s ∧ s.csr.freq.toNat ≤ 1023999969 ∧ max 5 (min 23 s.csr.pwr.toInt) = 21) ∧
    (∃ s : State, Ready s ∧ s.csr.freq.toNat ≤ 1023999969 ∧ max 5 (min 23 s.csr.pwr.toInt) = 5) :=
  ⟨⟨{ State.reset with csr := { Csr.reset with freq := 1023999969#32, pwr := 20#32 } }, ⟨rfl, rfl⟩, by decide, by decide⟩,
    ⟨{ State.reset with csr := { Csr.reset with freq := 0#32, pwr := 21#32 } }, ⟨rfl, rfl⟩, by decide, by decide⟩,
    ⟨{ State.reset with csr := { Csr.reset with pwr := BitVec.ofInt 32 (-10) } }, ⟨rfl, rfl⟩, by decide, by decide⟩⟩

theorem witness_CommandsKeepWhatIsNotTheirs : Ready State.reset ∧ ∃ t, exec .recv State.reset = .next t :=
  ⟨reset_ready, _, rfl⟩

theorem witness_FrequencyValueIsNearest : freqInRange 1023999969#32 = true ∧
    ∃ s : State, Ready s ∧ s.csr.freq = 1023999970#32 :=
  ⟨by decide, { State.reset with csr := { Csr.reset with freq := 1023999970#32 } }, ⟨rfl, rfl⟩, rfl⟩

/-- The mapped addresses at the ends of their ranges, and unmapped or misaligned ones beside them. -/
theorem witness_HostAccessesAnswerOrError :
    ([0x000#12, 0x044#12, 0x100#12, 0x2FC#12].all fun a =>
      decide (a.toNat % 4 = 0 ∧ (a.toNat < 0x048 ∨ (0x100 ≤ a.toNat ∧ a.toNat < 0x300)))) = true ∧
    ([0x048#12, 0x0FC#12, 0x300#12, 0xFFC#12, 0x002#12, 0x101#12].all fun a =>
      decide ¬ (a.toNat % 4 = 0 ∧ (a.toNat < 0x048 ∨ (0x100 ≤ a.toNat ∧ a.toNat < 0x300)))) = true ∧
    State.reset.rstN = true := by decide

/-- The first and the last word of TXBUF, and the ends of the read-only ranges. -/
theorem witness_ArgumentRegistersReadBack : Ready State.reset ∧
    ([0x100#12, 0x1FC#12].all fun a => decide (a.toNat % 4 = 0 ∧ 0x100 ≤ a.toNat ∧ a.toNat < 0x200)) = true ∧
    ([0x00C#12, 0x01C#12, 0x044#12, 0x200#12, 0x2FC#12].all fun a => decide (a.toNat % 4 = 0 ∧
      (a.toNat = 0x00C ∨ (0x01C ≤ a.toNat ∧ a.toNat < 0x048) ∨ (0x200 ≤ a.toNat ∧ a.toNat < 0x300)))) = true :=
  ⟨reset_ready, by decide, by decide⟩

/-- A cycle in which the synchroniser sees an edge and the host clears DIO. -/
theorem edge_and_clear : ∃ s t : State, s.rstN = true ∧ s.sync.s2 = true ∧ s.sync.prev = false ∧
    cycleMove (some (.write 0x004#12 0x8#32)) false true s = .next t :=
  ⟨{ State.reset with sync := ⟨true, true, false⟩ }, _, rfl, rfl, rfl, rfl⟩

/-- A busy block, and a cycle with an edge. -/
theorem witness_StatusIsWriteOneToClear : waitingSend.rstN = true ∧ ∃ s t : State, s.rstN = true ∧ s.sync.s2 = true ∧
    s.sync.prev = false ∧ cycleMove (some (.write 0x004#12 0x8#32)) false true s = .next t := ⟨rfl, edge_and_clear⟩

/-- A running and an idle block. -/
theorem witness_FsmWordShowsTheSequencer :
    (waitingSend.rstN = true ∧ waitingSend.seq = .run .send 8#8) ∧ (State.reset.rstN = true ∧ State.reset.seq = .idle) :=
  ⟨⟨rfl, rfl⟩, rfl, rfl⟩

theorem witness_CmdReadsTheLastSubmittedWord : Ready State.reset := reset_ready

/-- CONFIG with the largest accepted frequency. -/
theorem witness_SubmissionLatchesArguments : ∃ s : State, Ready s ∧ decodeWord 0x00000041#32 = .ok .config ∧
    s.csr.freq.toNat ≤ 1023999969 :=
  ⟨{ State.reset with csr := { Csr.reset with freq := 1023999969#32 } }, ⟨rfl, rfl⟩, by decide, by decide⟩

/-- A busy block, and an address of every kind of register the statement distinguishes. -/
theorem witness_BusyBlockDropsHostWrites : waitingSend.rstN = true ∧ waitingSend.seq = .run .send 8#8 ∧
    hostRegAt 0x000#12 = some .cmd ∧ hostRegAt 0x010#12 = some .txlen ∧ hostRegAt 0x014#12 = some .freq ∧
    hostRegAt 0x018#12 = some .pwr ∧ hostRegAt 0x1FC#12 = some (.txbuf 0x1FC) ∧ hostRegAt 0x004#12 = some .status ∧
    hostRegAt 0x008#12 = some .inten ∧ hostRegAt 0x00C#12 = some .rdata ∧
    hostRegAt 0x200#12 = some (.rxbuf 0x200) := by decide

theorem witness_HostCannotDisturbResultsOrCommand : waitingSend.seq = .run .send 8#8 := rfl

theorem witness_InterruptLineIsEnabledSources : State.reset.rstN = true := rfl

theorem witness_CycleShiftsTheSynchroniser : ∃ s t : State, s.rstN = true ∧
    cycleMove (some (.read 0x004#12)) true true s = .next t :=
  ⟨{ State.reset with sync := ⟨true, false, false⟩ }, _, rfl, rfl⟩

theorem witness_DioEdgeIsSeenWithinThreeCycles : ∃ s : State, s.rstN = true ∧ s.sync = ⟨false, false, false⟩ ∧
    s.inputs = .cycle none false true :: .cycle none false true :: .cycle none false true :: [] :=
  ⟨{ State.reset with inputs := [.cycle none false true, .cycle none false true, .cycle none false true] }, rfl, rfl, rfl⟩

/-- Every clause: a STBY whose only step ends in a cycle with an edge. -/
theorem witness_SameCycleOrder : ∃ s t u : State, s.rstN = true ∧ s.seq = .run .stby 0#8 ∧
    s.sync.s2 = true ∧ s.sync.prev = false ∧
    cycleMove (some (.write 0x000#12 0x10#32)) true false s = .next t ∧
    cycleMove (some (.write 0x004#12 0xA#32)) true false s = .next u ∧ u.seq = .idle :=
  ⟨{ State.reset with seq := .run .stby 0#8, sync := ⟨false, true, false⟩ }, _, _, rfl, rfl, rfl, rfl, rfl, rfl, rfl⟩

theorem reset_atReset : AtReset State.reset := ⟨rfl, rfl, ⟨rfl, rfl, rfl, rfl, rfl, rfl⟩, rfl, rfl, rfl, rfl, rfl, rfl⟩

theorem witness_BlockResetTakesResetValues :
    (∃ s : State, s.inputs = .rst false :: [] ∧ s.seq = .run .send 8#8) ∧
    (∃ s : State, AtReset s ∧ s.rstN = false ∧ s.inputs = .rst true :: []) :=
  ⟨⟨{ waitingSend with inputs := [.rst false] }, rfl, rfl⟩,
    ⟨{ State.reset with rstN := false, inputs := [.rst true] }, reset_atReset, rfl, rfl⟩⟩

theorem witness_NothingMovesInReset : (∃ s : State, s.rstN = false) ∧ (Ready State.reset ∧ State.reset.inputs = []) :=
  ⟨⟨{ State.reset with rstN := false }, rfl⟩, reset_ready, rfl⟩

/-- INIT at its step 2: `reset_n` is low. -/
def midInit : State := { State.reset with
  seq := .run .init 2#8
  lat := { Latches.reset with cmd := 0x00000040#32 }
  resetN := false
  trace := [.reset true, .reset false] }

theorem midInit_inv : BlockInvariant midInit where
  label := show (2#8).toNat ≤ 6 by decide
  latched := (rfl : Instr.opcode .init = .init)
  clean := ⟨rfl, rfl⟩
  wires := ⟨rfl, rfl, rfl⟩
  resetLine := fun _ => .inl rfl
  counters := ⟨rfl, rfl, by decide, by decide⟩
  length := trivial
  results := ⟨by decide, by decide, by decide, by decide, .inl rfl⟩
  outcomes := ⟨by decide, by decide⟩
  memory := rfl
  vars := rfl
  inReset := fun h => nomatch h

theorem witness_StepKeepsInvariant : BlockInvariant midInit ∧ ∃ t, step midInit = .next t := ⟨midInit_inv, _, rfl⟩

theorem witness_InvariantStatesNeverStop : BlockInvariant midInit := midInit_inv

theorem witness_TraceOnlyGrows : ∃ t, step waitingSend = .next t := ⟨_, rfl⟩

/-- A step that performs a burst. -/
theorem witness_BurstsGoToTheFifo : ∃ t, step { State.reset with inputs := [.command 0x00FF0003#32] } = .next t := ⟨_, rfl⟩

theorem witness_OneEventPerSequencerStep : midInit.rstN = true ∧ midInit.seq = .run .init 2#8 ∧
    (∃ t, seqMove midInit = .next t) ∧ BlockInvariant midInit ∧ midInit.resetN = false :=
  ⟨rfl, rfl, ⟨_, rfl⟩, midInit_inv, rfl⟩

theorem witness_WaveformCarriesTheBytes : 0 < par.spiHz ∧ 0 < halfPeriod par := by decide

/-- The byte lists of one register read, and a read that returns a byte. -/
theorem witness_WireEngineSamplesAndCounts : [0x42#8, 0x00#8].length = [0xFF#8, 0x12#8].length ∧ Spi.reset.sck = false ∧
    [0x42#8, 0x00#8].length = [0xFF#8].length + 1 ∧
    (spiAnswer 0x42#7 1 (scripted [0x12#8])).getLast? = some 0x12#8 := by decide

/-- A READ on the schedule, a register at either end of the map, and the first and last words of the buffers. -/
theorem witness_ReadDirectiveAssignsItsVariable :
    (∃ s : State, s.inputs = (HostLine.read 3 .txwaits).inputs par ++ [.sequencer]) ∧
    (State.reset.rstN = true ∧ hostRegAt (offsetOf .cmd) = some .cmd ∧ hostRegAt (offsetOf .fsm) = some .fsm ∧
      hostRegAt (offsetOf (.rxbuf 0x2FC)) = some (.rxbuf 0x2FC)) ∧
    ([0x100, 0x1FC].all fun x => decide (x % 4 = 0 ∧ 0x100 ≤ x ∧ x < 0x200)) = true ∧
    ([0x200, 0x2FC].all fun x => decide (x % 4 = 0 ∧ 0x200 ≤ x ∧ x < 0x300)) = true :=
  ⟨⟨{ State.reset with inputs := [.readInto 3 0x040#12, .sequencer] }, rfl⟩, by decide⟩

/-- WAITDONE on an idle block, in a wait, and on a running block outside one. -/
theorem witness_HostDirectivesExpand :
    (∃ s : State, s.rstN = true ∧ s.inputs = .waitDone :: [] ∧ s.seq = .idle) ∧
    (∃ s : State, s.rstN = true ∧ s.inputs = .waitDone :: [] ∧ InWait s) ∧
    (∃ s : State, s.rstN = true ∧ s.inputs = .waitDone :: [] ∧ s.seq ≠ .idle ∧ ¬ InWait s) :=
  ⟨⟨{ State.reset with inputs := [.waitDone] }, rfl, rfl, rfl⟩,
    ⟨{ waitingSend with inputs := [.waitDone] }, rfl, rfl, .inl rfl⟩,
    { State.reset with seq := .run .send 7#8, inputs := [.waitDone] }, rfl, rfl, by decide, by simp [InWait]⟩

/-- The three waits; a label beside one and an idle block; and a move of every agent on the schedule. -/
theorem witness_ScheduledMovesAreTheAgentsOwn :
    (∀ q ∈ [Seq.run .send 8#8, Seq.run .init 2#8, Seq.run .init 4#8], InWait { State.reset with seq := q }) ∧
    (∀ q ∈ [Seq.run .send 7#8, Seq.run .send 9#8, Seq.run .init 3#8, Seq.idle], ¬ InWait { State.reset with seq := q }) ∧
    (∀ m : Input, ∃ s : State, s.rstN = true ∧ s.inputs = m :: []) :=
  ⟨by simp [InWait], by simp [InWait], fun m => ⟨{ State.reset with inputs := [m] }, rfl, rfl⟩⟩

/-- No byte, and a group that ends with TXBUF. -/
theorem witness_LdtxStoresItsBytes : Ready State.reset ∧ (HostLine.ldtx 0 []).wf = true ∧
    (HostLine.ldtx 252 [1#8, 2#8, 3#8, 4#8]).wf = true := ⟨reset_ready, by decide, by decide⟩

theorem witness_ReferenceChipFlagsAreWriteOneToClear : par.regs.irqFlags ≠ par.regs.fifo ∧ (fresh 0).pending = none := by
  decide

end Sys2Proof.Tests
end

section
/-! SUPPORT. The word of a well-formed command decodes to the command (30_encoding.md R111, R115). -/

namespace Sys2Proof

@[simp] theorem Word.reserved_encodeFields (o : Opcode) (a b : Byte) : Word.reserved (encodeFields o a b) = 0#32 := by
  apply BitVec.eq_of_getLsbD_eq
  intro i hi
  simp only [Word.reserved, encodeFields, BitVec.getLsbD_and, BitVec.getLsbD_append]
  interval_cases i <;> simp

/-- The word of an opcode with operands that fit their fields decodes to the opcode's command. -/
theorem decodeWord_encodeFields {o : Opcode} {a b : Byte} (ha : (a.setWidth 7).setWidth 8 = a)
    (hA : o.usesA = false → a = 0#8) (hB : o.usesB = false → b = 0#8) :
    decodeWord (encodeFields o a b) = .ok (o.instr a b) := by
  have h1 : ¬ (o.usesA = false ∧ a ≠ 0#8) := fun h => h.2 (hA h.1)
  have h2 : ¬ (o.usesB = false ∧ b ≠ 0#8) := fun h => h.2 (hB h.1)
  simp only [decodeWord, Word.opc_encodeFields, Opcode.ofByte_toByte, Word.reserved_encodeFields,
    Word.fieldA_encodeFields, Word.fieldB_encodeFields, ha, h1, h2, ne_eq, not_true_eq_false, if_false]

theorem setWidth_7_8_of_lt {a : Byte} (h : a.toNat < 128) : (a.setWidth 7).setWidth 8 = a := by
  bv_omega

/-- A well-formed command is what its word decodes to (R110 to R115). -/
theorem decodeWord_encode {i : Instr} (h : i.wf = true) : decodeWord (encode i) = .ok i := by
  cases i with
  | regw a v => exact decodeWord_encodeFields (setWidth_7_8_of_lt (of_decide_eq_true h)) nofun nofun
  | regr a => exact decodeWord_encodeFields (setWidth_7_8_of_lt (of_decide_eq_true h)) nofun (fun _ => rfl)
  | fifow n | fifor n => exact decodeWord_encodeFields rfl (fun _ => rfl) nofun
  | _ => exact decodeWord_encodeFields rfl (fun _ => rfl) (fun _ => rfl)

end Sys2Proof
end

section
/-! SUPPORT. Proofs about the scope of the model (00_scope.md): what a step takes off the schedule, that the observation
only grows, one event per sequencer step, and that a whole command is its submission and its labels. -/

namespace Sys2Proof.Machine

open Sys2Proof.Claims

/-! ## One step, by what is scheduled (R5) -/

/-- With nothing scheduled the block moves (log 5). -/
theorem step_of_no_inputs {s : State} (h : s.inputs = []) : step s = seqMove s := by
  simp [step, h, blockMove]

/-- A scheduled move other than a whole command is its agent's. -/
theorem step_of_agent {s : State} {m : Input} {rest : List Input} (h : s.inputs = m :: rest)
    (hm : ∀ w, m ≠ .command w) : step s = agentMove m { s with inputs := rest } := by
  cases m with
  | command w => exact absurd rfl (hm w)
  | _ => simp [step, h]

theorem sequencerMove_of_wait {s : State} (h : InWait s) : sequencerMove s = .next s := by
  simp [sequencerMove, (waiting_iff s).mpr h]

theorem sequencerMove_of_not_wait {s : State} (h : ¬ InWait s) : sequencerMove s = seqMove s := by
  simp [sequencerMove, mt (waiting_iff s).mp h]

theorem timeBaseMove_of_wait {s : State} (h : InWait s) : timeBaseMove s = seqMove s := by
  simp [timeBaseMove, (waiting_iff s).mpr h]

theorem timeBaseMove_of_not_wait {s : State} (h : ¬ InWait s) : timeBaseMove s = .next s := by
  simp [timeBaseMove, mt (waiting_iff s).mp h]

/-- Settles O59: each scheduled move is looked up in `agentMove`, the two waits by `InWait`. -/
theorem scheduledMovesAreTheAgentsOwn : Obligations.ScheduledMovesAreTheAgentsOwn := by
  intro s rest hrst
  refine ⟨fun acc h => ?host, fun h => ⟨fun hw => ?seqWaits, fun hw => ?seqMoves⟩,
    fun h => ⟨fun hw => ?timeBaseEnds, fun hw => ?timeBaseIdle⟩, fun h => ?dio, fun acc ends level h => ?cycle,
    step_of_no_inputs⟩
  case host => exact step_of_agent h (by simp)
  case seqWaits => exact (step_of_agent h (by simp)).trans (sequencerMove_of_wait hw)
  case seqMoves => exact (step_of_agent h (by simp)).trans (sequencerMove_of_not_wait hw)
  case timeBaseEnds => exact (step_of_agent h (by simp)).trans (timeBaseMove_of_wait hw)
  case timeBaseIdle => exact (step_of_agent h (by simp)).trans (timeBaseMove_of_not_wait hw)
  case dio =>
    rw [step_of_agent h (by simp)]
    simp [agentMove, dio0RiseMove, dio0Rise, hrst]
  case cycle => exact step_of_agent h (by simp)

/-! ## One sequencer step (R10, R23) -/

theorem seqMove_inReset {s : State} (h : s.rstN = false) : seqMove s = .next s := by
  simp [seqMove, h]

theorem seqMove_idle {s : State} (h : s.seq = .idle) : seqMove s = .next s := by
  simp [seqMove, h]

/-- A running sequencer moves as the label it stands at does. -/
theorem seqMove_run_iff {s t : State} {o : Opcode} {n : BitVec 8} (hrst : s.rstN = true) (hseq : s.seq = .run o n) :
    seqMove s = .next t ↔ stepsOf o n.toNat s = some t := by
  simp only [seqMove, hrst, hseq, if_true]
  cases stepsOf o n.toNat s <;> simp

/-- Everything a sequencer move can do: nothing, or one label of the running command. -/
theorem seqMove_cases {s t : State} (h : seqMove s = .next t) :
    t = s ∨ ∃ o n, s.seq = .run o n ∧ stepsOf o n.toNat s = some t := by
  cases hrst : s.rstN with
  | false =>
    rw [seqMove_inReset hrst] at h
    exact .inl (by cases h; rfl)
  | true =>
    cases hseq : s.seq with
    | idle =>
      rw [seqMove_idle hseq] at h
      exact .inl (by cases h; rfl)
    | run o n => exact .inr ⟨o, n, rfl, (seqMove_run_iff hrst hseq).mp h⟩

/-- While `reset_n` is low the block stands at label 2 or 3 of INIT (R286). -/
theorem label_of_resetLineLow {s : State} {o : Opcode} {n : BitVec 8} (h : ResetLineLow s) (hlow : s.resetN = false)
    (hseq : s.seq = .run o n) : o = .init ∧ n.toNat ≤ 4 := by
  obtain h2 | h3 := h hlow
  · rw [hseq] at h2; cases h2; exact ⟨rfl, by decide⟩
  · rw [hseq] at h3; cases h3; exact ⟨rfl, by decide⟩

/-- Settles O52: the event of the label the sequencer stands at, and which labels have `reset_n` low. -/
theorem oneEventPerSequencerStep : Obligations.OneEventPerSequencerStep := by
  intro s t o n hrst hseq hmove
  obtain ⟨e, htrace, -, -, hinit⟩ := stepsOf_event ((seqMove_run_iff hrst hseq).mp hmove)
  refine ⟨e, htrace, fun hinv hlow => ?_⟩
  obtain ⟨ho, hn⟩ := label_of_resetLineLow hinv.resetLine hlow hseq
  exact hinit ho hn

/-! ## The observation only grows (R6, R7) -/

/-- `t` has the configuration of `s`, and its trace extends that of `s`. -/
structure GrowsTo (s t : State) : Prop where
  par : t.par = s.par
  trace : ∃ es, t.trace = s.trace ++ es

/-- A change that leaves the configuration and the trace alone. -/
theorem GrowsTo.of_eq {s t : State} (hp : t.par = s.par) (ht : t.trace = s.trace) : GrowsTo s t :=
  ⟨hp, [], by rw [ht, List.append_nil]⟩

theorem GrowsTo.refl (s : State) : GrowsTo s s := .of_eq rfl rfl

theorem GrowsTo.trans {s t u : State} (h : GrowsTo s t) (h' : GrowsTo t u) : GrowsTo s u := by
  obtain ⟨hp, es, ht⟩ := h
  obtain ⟨hp', es', ht'⟩ := h'
  exact ⟨hp'.trans hp, es ++ es', by rw [ht', ht, List.append_assoc]⟩

/-- A label appends its one event. -/
theorem stepsOf_growsTo {o : Opcode} {n : Nat} {s t : State} (h : stepsOf o n s = some t) : GrowsTo s t := by
  obtain ⟨e, htrace, -⟩ := stepsOf_event h
  exact ⟨(stepsOf_frame h).1.par, [e], htrace⟩

theorem seqMove_growsTo {s t : State} (h : seqMove s = .next t) : GrowsTo s t := by
  obtain rfl | ⟨o, n, -, hlabel⟩ := seqMove_cases h
  · exact .refl _
  · exact stepsOf_growsTo hlabel

theorem beginCommand_growsTo (w : Word) (i : Instr) (s : State) : GrowsTo s (beginCommand w i s) := by
  obtain ⟨-, -, h⟩ | ⟨-, h⟩ := beginCommand_cases w i s <;> rw [h] <;> exact .of_eq rfl rfl

theorem refuseWord_growsTo (w : Word) (e : WordError) (s : State) : GrowsTo s (refuseWord w e s) := .of_eq rfl rfl

theorem submit_growsTo (w : Word) (s : State) : GrowsTo s (submit w s) := by
  unfold submit
  split
  · exact refuseWord_growsTo _ _ _
  · exact beginCommand_growsTo _ _ _

theorem whenReady_growsTo {act : State → State} (hact : ∀ s, GrowsTo s (act s)) (s : State) :
    GrowsTo s (whenReady s act) := by
  unfold whenReady
  split
  · split
    · exact hact s
    · exact .of_eq rfl rfl
  · exact .refl s

theorem unlessBusy_growsTo {act : State → State} (hact : ∀ s, GrowsTo s (act s)) (s : State) :
    GrowsTo s (unlessBusy s act) := by
  unfold unlessBusy
  split
  · exact hact s
  · exact .of_eq rfl rfl

theorem hostRegWrite_growsTo (v : Word) (s : State) (r : HostReg) : GrowsTo s (hostRegWrite v s r) := by
  cases r
  case cmd => exact unlessBusy_growsTo (submit_growsTo v) s
  case txlen | freq | pwr | txbuf =>
    rw [hostRegWrite]
    refine unlessBusy_growsTo (fun u => ?_) s
    exact .of_eq rfl rfl
  all_goals exact .of_eq rfl rfl

theorem hostRead_growsTo (a : HostAddr) (s : State) : GrowsTo s (hostRead a s) := by
  unfold hostRead
  repeat' split
  all_goals exact .of_eq rfl rfl

theorem hostWrite_growsTo (a : HostAddr) (v : Word) (s : State) : GrowsTo s (hostWrite a v s) := by
  unfold hostWrite
  split
  · split
    · exact (hostRegWrite_growsTo v s _).trans (.of_eq rfl rfl)
    · exact .of_eq rfl rfl
  · exact .of_eq rfl rfl

theorem hostAccess_growsTo (acc : HostAccess) (s : State) : GrowsTo s (hostAccess acc s) := by
  cases acc with
  | read a => exact hostRead_growsTo a s
  | write a v => exact hostWrite_growsTo a v s

theorem cycleHost_growsTo (acc : Option HostAccess) (s : State) : GrowsTo s (cycleHost acc s) := by
  cases acc with
  | none => exact .refl s
  | some acc => exact hostAccess_growsTo acc s

theorem cycleSeq_growsTo {ends : Bool} {s t : State} (h : cycleSeq ends s = .next t) : GrowsTo s t := by
  cases ends with
  | true => exact seqMove_growsTo h
  | false => cases h; exact .refl s

theorem cycleDio_growsTo (level : Bool) (s : State) : GrowsTo s (cycleDio level s) := by
  unfold cycleDio
  split <;> exact .of_eq rfl rfl

theorem cycleMove_growsTo {acc : Option HostAccess} {ends level : Bool} {s t : State}
    (h : cycleMove acc ends level s = .next t) : GrowsTo s t := by
  unfold cycleMove at h
  split at h
  case h_1 u hseq =>
    cases h
    exact ((cycleHost_growsTo acc s).trans (cycleSeq_growsTo hseq)).trans (cycleDio_growsTo level u)
  all_goals cases h

theorem sequencerMove_growsTo {s t : State} (h : sequencerMove s = .next t) : GrowsTo s t := by
  unfold sequencerMove at h
  split at h
  · cases h; exact .refl s
  · exact seqMove_growsTo h

theorem timeBaseMove_growsTo {s t : State} (h : timeBaseMove s = .next t) : GrowsTo s t := by
  unfold timeBaseMove at h
  split at h
  · exact seqMove_growsTo h
  · cases h; exact .refl s

theorem dio0RiseMove_growsTo (s : State) : GrowsTo s (dio0RiseMove s) := by
  unfold dio0RiseMove
  split <;> exact .of_eq rfl rfl

/-- Block reset is no exception: the observation is not the block's (log 18). -/
theorem setRst_growsTo (level : Bool) (s : State) : GrowsTo s (setRst level s) := by
  cases level <;> exact .of_eq rfl rfl

theorem waitDoneMove_growsTo (s : State) : GrowsTo s (waitDoneMove s) := by
  unfold waitDoneMove
  split
  · exact (hostRead_growsTo statusAddr s).trans (.of_eq rfl rfl)
  · exact hostRead_growsTo statusAddr s

theorem readInto_growsTo (r : Nat) (a : HostAddr) (s : State) : GrowsTo s (readInto r a s) :=
  (hostRead_growsTo a s).trans (.of_eq rfl rfl)

theorem exec_growsTo {i : Instr} {s t : State} (h : exec i s = .next t) : GrowsTo s t := by
  obtain ⟨fuel, hexec⟩ := exec_eq i s
  rw [hexec] at h
  cases h
  refine whenReady_growsTo (fun u => ?_) s
  exact runTable_induct (P := GrowsTo u) (fun _ _ _ hu hlabel => hu.trans (stepsOf_growsTo hlabel)) fuel
    (beginCommand_growsTo (encode i) i u)

theorem stepCommand_growsTo {w : Word} {s t : State} (h : stepCommand w s = .next t) : GrowsTo s t := by
  unfold stepCommand at h
  split at h
  · exact exec_growsTo h
  · cases h; exact whenReady_growsTo (refuseWord_growsTo w _) s
  · cases h; exact whenReady_growsTo (submit_growsTo w) s

theorem agentMove_growsTo {m : Input} {s t : State} (h : agentMove m s = .next t) : GrowsTo s t := by
  cases m with
  | command w => cases h; exact whenReady_growsTo (submit_growsTo w) s
  | host acc => cases h; exact hostAccess_growsTo acc s
  | sequencer => exact sequencerMove_growsTo h
  | timeBase => exact timeBaseMove_growsTo h
  | dio0Rise => cases h; exact dio0RiseMove_growsTo s
  | cycle acc ends level => exact cycleMove_growsTo h
  | rst level => cases h; exact setRst_growsTo level s
  | deliver bytes addr rssi snr => cases h; exact .of_eq rfl rfl
  | waitDone => cases h; exact waitDoneMove_growsTo s
  | readInto r a => cases h; exact readInto_growsTo r a s

/-- Taking a move off the schedule shows nothing to the observer. -/
theorem withInputs_growsTo (s : State) (rest : List Input) : GrowsTo s { s with inputs := rest } := .of_eq rfl rfl

theorem step_growsTo {s t : State} (h : step s = .next t) : GrowsTo s t := by
  unfold step at h
  split at h
  · exact seqMove_growsTo h
  · exact (withInputs_growsTo s _).trans (stepCommand_growsTo h)
  · exact (withInputs_growsTo s _).trans (agentMove_growsTo h)

/-- Settles O50: every operation a step is made of keeps the configuration and extends the trace. -/
theorem traceOnlyGrows : Obligations.TraceOnlyGrows := by
  intro s t h
  obtain ⟨hpar, htrace⟩ := step_growsTo h
  exact ⟨hpar, htrace⟩

/-! ## How many labels a command can still run after the one it stands at (R23, R184) -/

/-- SEND: the set-up up to label 7, two labels for each wait the counter `k` is short of 1000, the two after the loop; from
label 0, which clears `k`, 2009 in all. Counted modulo 2^16 as `k` is, so that it falls at every label whatever `k` is. -/
def sendLabelsAfter (n : Nat) (k : BitVec 16) : Nat :=
  if n = 0 then 2009
  else if n ≤ 7 then 7 - n + 2 * (1000#16 - k).toNat + 2
  else if n = 8 then 2 * (999#16 - k).toNat + 3
  else 10 - n

/-- At most this many labels run after label `n`, with the loop counter at `k`. RECV ends with label 7 or with label 8. -/
def labelsAfter (o : Opcode) (n : Nat) (k : BitVec 16) : Nat :=
  match o with
  | .send => sendLabelsAfter n k
  | .recv => if n = 8 then 0 else 7 - n
  | _ => lastLabel o - n

/-- The most labels one run of a command goes through, from label 0 to its end (R184). -/
def mostLabels : Opcode → Nat
  | .send => sendFuel
  | .recv => 8
  | o => lastLabel o + 1

theorem mostLabels_le (o : Opcode) : mostLabels o ≤ 2010 := by
  cases o <;> simp [mostLabels, lastLabel, sendFuel, Config.txTimeoutMs]

theorem labelsAfter_zero_lt (o : Opcode) (k : BitVec 16) : labelsAfter o 0 k < mostLabels o := by
  cases o <;> simp [labelsAfter, sendLabelsAfter, mostLabels, lastLabel, sendFuel, Config.txTimeoutMs]

/-- In `s` the command `o` has ended or stands at a label of its own, with less than `bound` labels after that one. -/
def GoesOnBelow (o : Opcode) (bound : Nat) (s : State) : Prop :=
  s.seq = .idle ∨ ∃ m, s.seq = .run o m ∧ m.toNat ≤ lastLabel o ∧ labelsAfter o m.toNat s.lat.k < bound

theorem goesOnBelow_finish (o : Opcode) (bound : Nat) (s : State) : GoesOnBelow o bound (finish s) := .inl rfl

theorem goesOnBelow_goto {o : Opcode} {bound : Nat} {m : BitVec 8} {s : State} (hm : m.toNat ≤ lastLabel o)
    (hlt : labelsAfter o m.toNat s.lat.k < bound) : GoesOnBelow o bound (goto o m s) := .inr ⟨m, rfl, hm, hlt⟩

theorem sendLabelsAfter_poll (k : BitVec 16) : sendLabelsAfter 7 k = 2 * (1000#16 - k).toNat + 2 := by
  simp [sendLabelsAfter]

theorem sendLabelsAfter_wait (k : BitVec 16) : sendLabelsAfter 8 k = 2 * (999#16 - k).toNat + 3 := by
  simp [sendLabelsAfter]

/-- Label 7 of SEND leaves the loop, or waits once more with `k` not yet 1000 (R183). -/
theorem sendPolled_goesOnBelow (f : Byte) (s : State) :
    GoesOnBelow .send (sendLabelsAfter 7 s.lat.k) (sendPolled f s) := by
  unfold sendPolled
  split
  · exact goesOnBelow_goto (by decide) (by simp [labelsAfter, sendLabelsAfter])
  · split
    · exact goesOnBelow_goto (by decide) (by simp [labelsAfter, sendLabelsAfter])
    · rename_i hk
      have hdist : (1000#16 - s.lat.k).toNat = (999#16 - s.lat.k).toNat + 1 := by
        simp only [Config.txTimeoutMs] at hk
        bv_omega
      refine goesOnBelow_goto (by decide) ?_
      change sendLabelsAfter 8 s.lat.k < sendLabelsAfter 7 s.lat.k
      rw [sendLabelsAfter_wait, sendLabelsAfter_poll, hdist]
      omega

/-- Label 8 of SEND goes back to label 7 with one wait less to come. -/
theorem sendWaited_goesOnBelow (m : Nat) (s : State) :
    GoesOnBelow .send (sendLabelsAfter 8 s.lat.k) (goto .send 7#8 (sendWaited (waitMs m s))) := by
  refine goesOnBelow_goto (by decide) ?_
  change sendLabelsAfter 7 (s.lat.k + 1#16) < sendLabelsAfter 8 s.lat.k
  have hk : 1000#16 - (s.lat.k + 1#16) = 999#16 - s.lat.k := by bv_omega
  rw [sendLabelsAfter_poll, sendLabelsAfter_wait, hk]
  omega

/-- Label 0 of RECV ends it or goes to label 1 (R202). -/
theorem recvFlags_goesOnBelow (f : Byte) (s : State) : GoesOnBelow .recv 7 (recvFlags f s) := by
  unfold recvFlags
  split
  · exact goesOnBelow_goto (by decide) (by simp [labelsAfter])
  · exact goesOnBelow_finish _ _ _

/-- Label 1 of RECV goes to label 2 or to label 8 (R203). -/
theorem recvLength_goesOnBelow (nb : Byte) (s : State) : GoesOnBelow .recv 6 (recvLength nb s) := by
  unfold recvLength
  split <;> exact goesOnBelow_goto (by decide) (by simp [labelsAfter])

/-- Label 6 of CONFIG goes to label 7, or past the amplifier write to label 8 (R226, R230). -/
theorem configAmplifier_goesOnBelow (high : Bool) (s : State) :
    GoesOnBelow .config 8 (goto .config (if high then 7#8 else 8#8) s) := by
  cases high <;> exact goesOnBelow_goto (by decide) (by simp [labelsAfter, lastLabel])

theorem rxmSteps_goesOnBelow {s : State} : ∀ {n : Nat} {t : State}, rxmSteps n s = some t →
    GoesOnBelow .rxm (labelsAfter .rxm n s.lat.k) t
  | 0, _, rfl | 1, _, rfl | 2, _, rfl => goesOnBelow_goto (by decide) (by simp [labelsAfter, lastLabel])
  | 3, _, rfl => goesOnBelow_finish _ _ _
  | _ + 4, _, h => nomatch h

theorem sendSteps_goesOnBelow {s : State} : ∀ {n : Nat} {t : State}, sendSteps n s = some t →
    GoesOnBelow .send (labelsAfter .send n s.lat.k) t
  | 7, _, rfl => sendPolled_goesOnBelow _ _
  | 8, _, rfl => sendWaited_goesOnBelow _ _
  | 0, _, rfl | 1, _, rfl | 2, _, rfl | 3, _, rfl | 4, _, rfl | 5, _, rfl | 6, _, rfl | 9, _, rfl =>
    goesOnBelow_goto (by decide) (by simp [labelsAfter, sendLabelsAfter])
  | 10, _, rfl => goesOnBelow_finish _ _ _
  | _ + 11, _, h => nomatch h

theorem recvSteps_goesOnBelow {s : State} : ∀ {n : Nat} {t : State}, recvSteps n s = some t →
    GoesOnBelow .recv (labelsAfter .recv n s.lat.k) t
  | 0, _, rfl => recvFlags_goesOnBelow _ _
  | 1, _, rfl => recvLength_goesOnBelow _ _
  | 2, _, rfl | 3, _, rfl | 4, _, rfl | 5, _, rfl | 6, _, rfl => goesOnBelow_goto (by decide) (by simp [labelsAfter])
  | 7, _, rfl | 8, _, rfl => goesOnBelow_finish _ _ _
  | _ + 9, _, h => nomatch h

theorem initSteps_goesOnBelow {s : State} : ∀ {n : Nat} {t : State}, initSteps n s = some t →
    GoesOnBelow .init (labelsAfter .init n s.lat.k) t
  | 0, _, rfl | 1, _, rfl | 2, _, rfl | 3, _, rfl | 4, _, rfl | 5, _, rfl =>
    goesOnBelow_goto (by decide) (by simp [labelsAfter, lastLabel])
  | 6, _, rfl => goesOnBelow_finish _ _ _
  | _ + 7, _, h => nomatch h

theorem configSteps_goesOnBelow {s : State} : ∀ {n : Nat} {t : State}, configSteps n s = some t →
    GoesOnBelow .config (labelsAfter .config n s.lat.k) t
  | 6, _, rfl => configAmplifier_goesOnBelow _ _
  | 0, _, rfl | 1, _, rfl | 2, _, rfl | 3, _, rfl | 4, _, rfl | 5, _, rfl | 7, _, rfl | 8, _, rfl | 9, _, rfl
  | 10, _, rfl | 11, _, rfl | 12, _, rfl | 13, _, rfl => goesOnBelow_goto (by decide) (by simp [labelsAfter, lastLabel])
  | 14, _, rfl => goesOnBelow_finish _ _ _
  | _ + 15, _, h => nomatch h

/-- Every label of every command ends it or goes on with fewer labels to come; a command of one label ends with it. -/
theorem stepsOf_goesOnBelow {o : Opcode} {n : Nat} {s t : State} (h : stepsOf o n s = some t) :
    GoesOnBelow o (labelsAfter o n s.lat.k) t := by
  cases o with
  | rxm => exact rxmSteps_goesOnBelow h
  | send => exact sendSteps_goesOnBelow h
  | recv => exact recvSteps_goesOnBelow h
  | init => exact initSteps_goesOnBelow h
  | config => exact configSteps_goesOnBelow h
  | _ =>
    obtain rfl : n = 0 := Nat.le_zero.mp (stepsOf_le h)
    cases h
    exact goesOnBelow_finish _ _ _

/-- A command given more steps than labels can follow ends (R23). -/
theorem runTable_ends {o : Opcode} {fuel : Nat} {s : State} (h : GoesOnBelow o fuel s) :
    (runTable (stepsOf o) fuel s).seq = .idle := by
  induction fuel generalizing s with
  | zero =>
    obtain hidle | ⟨m, -, -, hlt⟩ := h
    · exact hidle
    · exact absurd hlt (Nat.not_lt_zero _)
  | succ fuel ih =>
    obtain hidle | ⟨m, hseq, hle, hlt⟩ := h
    · rw [runTable_idle _ _ hidle]; exact hidle
    · obtain ⟨t, ht⟩ := Option.isSome_iff_exists.mp (stepsOf_isSome s hle)
      rw [runTable_step hseq ht]
      refine ih ((stepsOf_goesOnBelow ht).imp id fun ⟨m', hseq', hle', hlt'⟩ => ⟨m', hseq', hle', ?_⟩)
      omega

/-! ## The run of a command and the steps of the block (R5, R10) -/

/-- With nothing scheduled, the run of a command through its labels is that many steps of the machine, or fewer when the
command ends before its fuel does. -/
theorem runTable_eq_steps {o : Opcode} (fuel : Nat) {s : State} (hrst : s.rstN = true) (hin : s.inputs = [])
    (hseq : s.seq = .idle ∨ ∃ m, s.seq = .run o m) :
    ∃ n ≤ fuel, steps n s = .next (runTable (stepsOf o) fuel s) := by
  induction fuel generalizing s with
  | zero => exact ⟨0, le_rfl, rfl⟩
  | succ fuel ih =>
    obtain hidle | ⟨m, hrun⟩ := hseq
    · exact ⟨0, Nat.zero_le _, by rw [runTable_idle _ _ hidle]; rfl⟩
    · cases ht : stepsOf o m.toNat s with
      | none => exact ⟨0, Nat.zero_le _, by rw [runTable_none hrun ht]; rfl⟩
      | some t =>
        obtain ⟨hframe, hnext⟩ := stepsOf_frame ht
        obtain ⟨n, hn, hsteps⟩ := ih (hframe.rstN.trans hrst) (hframe.inputs.trans hin) (hnext.imp And.left id)
        have hstep : step s = .next t := (step_of_no_inputs hin).trans ((seqMove_run_iff hrst hrun).mpr ht)
        refine ⟨n + 1, Nat.succ_le_succ hn, ?_⟩
        rw [runTable_step hrun ht, ← hsteps, steps, hstep]

/-- `exec` on a ready block is the command's submission and a run through its labels with fuel for every one of them. -/
theorem exec_eq_runTable (i : Instr) {s : State} (h : Ready s) :
    exec i s = .next (runTable (stepsOf i.opcode) (mostLabels i.opcode) (beginCommand (encode i) i s)) := by
  cases i <;> exact runCommand_ready h.1 h.2

/-- A ready block takes the word of a well-formed command as that command's submission (R240). -/
theorem writeCmd_encode {i : Instr} {s : State} (hwf : i.wf = true) (hready : Ready s) :
    writeCmd (encode i) s = beginCommand (encode i) i s := by
  rw [writeCmd, whenReady_idle hready.1 hready.2, submit, decodeWord_encode hwf]

/-- After its submission a command stands at label 0, or has been refused (R225, R240). -/
theorem beginCommand_goesOnBelow (w : Word) (i : Instr) (s : State) :
    GoesOnBelow i.opcode (mostLabels i.opcode) (beginCommand w i s) := by
  obtain ⟨-, -, h⟩ | ⟨-, h⟩ := beginCommand_cases w i s <;> rw [h]
  · exact .inl rfl
  · refine .inr ⟨0#8, rfl, Nat.zero_le _, ?_⟩
    exact labelsAfter_zero_lt i.opcode _

/-- A submission leaves the block-reset pin and the schedule alone. -/
theorem beginCommand_frame (w : Word) (i : Instr) (s : State) :
    (beginCommand w i s).rstN = s.rstN ∧ (beginCommand w i s).inputs = s.inputs := by
  obtain ⟨-, -, h⟩ | ⟨-, h⟩ := beginCommand_cases w i s <;> rw [h] <;> exact ⟨rfl, rfl⟩

/-- Settles O8: `exec` is a run through the labels, each label is one step of the block, and the labels left fall at every
label, from at most 2009. -/
theorem commandIsSubmissionThenSequencerSteps : Obligations.CommandIsSubmissionThenSequencerSteps := by
  intro i s hwf hready hin
  have hgoes := beginCommand_goesOnBelow (encode i) i s
  obtain ⟨hrst, hinputs⟩ := beginCommand_frame (encode i) i s
  obtain ⟨n, hn, hsteps⟩ := runTable_eq_steps (o := i.opcode) (mostLabels i.opcode) (hrst.trans hready.1)
    (hinputs.trans hin) (hgoes.imp id fun ⟨m, hseq, _⟩ => ⟨m, hseq⟩)
  refine ⟨n, _, ?_, exec_eq_runTable i hready, ?_, runTable_ends hgoes⟩
  · exact hn.trans (mostLabels_le i.opcode)
  · rw [writeCmd_encode hwf hready]; exact hsteps

end Sys2Proof.Machine
end

section
/-! SUPPORT. The host register space (20_memory.md R70 to R75): which addresses are mapped, what an access to a mapped
and to an unmapped one is, what no access changes, and what is
read back after a write. -/

namespace Sys2Proof.Machine

open Sys2Proof.Claims

/-! ## Which addresses are mapped (R25, R74) -/

theorem hostRegAt_txbuf {a : HostAddr} (h4 : a.toNat % 4 = 0) (h1 : 0x100 ≤ a.toNat) (h2 : a.toNat < 0x200) :
    hostRegAt a = some (.txbuf a.toNat) := by
  simp [hostRegAt, h4, h1, h2]

theorem hostRegAt_rxbuf {a : HostAddr} (h4 : a.toNat % 4 = 0) (h1 : 0x200 ≤ a.toNat) (h2 : a.toNat < 0x300) :
    hostRegAt a = some (.rxbuf a.toNat) := by
  have hnot : ¬ a.toNat < 0x200 := by omega
  simp [hostRegAt, h4, h1, h2, hnot]

/-- The map of R25 has each named register at its offset. -/
theorem hostRegAt_offsetOf_named : ∀ r ∈ namedRegs, hostRegAt (offsetOf r) = some r := by decide

/-- Every aligned address below 0x048 is the offset of a named register. -/
theorem exists_named_offset {a : HostAddr} (h4 : a.toNat % 4 = 0) (h : a.toNat < 0x048) :
    ∃ r ∈ namedRegs, offsetOf r = a := by
  have htable : ∀ k < 18, ∃ r ∈ namedRegs, offsetOf r = BitVec.ofNat 12 (4 * k) := by decide
  obtain ⟨r, hr, hoff⟩ := htable (a.toNat / 4) (by omega)
  refine ⟨r, hr, hoff.trans ?_⟩
  rw [show 4 * (a.toNat / 4) = a.toNat by omega, BitVec.ofNat_toNat, BitVec.setWidth_eq]

theorem hostRegAt_isSome_of_mapped {a : HostAddr} (h4 : a.toNat % 4 = 0)
    (h : a.toNat < 0x048 ∨ (0x100 ≤ a.toNat ∧ a.toNat < 0x300)) : ∃ r, hostRegAt a = some r := by
  obtain hnamed | ⟨h1, h2⟩ := h
  · obtain ⟨r, hr, rfl⟩ := exists_named_offset h4 hnamed
    exact ⟨r, hostRegAt_offsetOf_named r hr⟩
  · obtain htx | hrx := Nat.lt_or_ge a.toNat 0x200
    · exact ⟨_, hostRegAt_txbuf h4 h1 htx⟩
    · exact ⟨_, hostRegAt_rxbuf h4 hrx h2⟩

/-- Only aligned addresses below 0x048 and in the two buffers are mapped. -/
theorem mapped_of_hostRegAt {a : HostAddr} {r : HostReg} (h : hostRegAt a = some r) :
    a.toNat % 4 = 0 ∧ (a.toNat < 0x048 ∨ (0x100 ≤ a.toNat ∧ a.toNat < 0x300)) := by
  unfold hostRegAt at h
  split at h
  · cases h
  · split at h
    · omega
    · split at h
      · omega
      · split at h
        case h_19 => cases h
        all_goals omega

/-- A word of TXBUF is named by its own address, inside TXBUF. -/
theorem txbuf_of_hostRegAt {a : HostAddr} {x : Nat} (h : hostRegAt a = some (.txbuf x)) :
    x = a.toNat ∧ x % 4 = 0 ∧ 0x100 ≤ x ∧ x < 0x200 := by
  unfold hostRegAt at h
  split at h
  · cases h
  · split at h
    · cases h; omega
    · split at h
      · cases h
      · split at h <;> cases h

/-! ## Reads and writes (R72 to R74, R271) -/

theorem hostRead_mapped {a : HostAddr} {s : State} {r : HostReg} (hrst : s.rstN = true) (h : hostRegAt a = some r) :
    hostRead a s = respond (hostRegValue s r) false s := by
  simp [hostRead, hrst, h]

theorem hostRead_unmapped {a : HostAddr} {s : State} (hrst : s.rstN = true) (h : hostRegAt a = none) :
    hostRead a s = respond 0#32 true s := by
  simp [hostRead, hrst, h]

theorem hostWrite_mapped {a : HostAddr} {s : State} {r : HostReg} (v : Word) (hrst : s.rstN = true)
    (h : hostRegAt a = some r) : hostWrite a v s = respond 0#32 false (hostRegWrite v s r) := by
  simp [hostWrite, hrst, h]

theorem hostWrite_unmapped {a : HostAddr} {s : State} (v : Word) (hrst : s.rstN = true) (h : hostRegAt a = none) :
    hostWrite a v s = respond 0#32 true s := by
  simp [hostWrite, hrst, h]

/-- A read changes nothing but the answer on the bus. -/
theorem hostRead_eq_respond (a : HostAddr) (s : State) : ∃ d e, hostRead a s = respond d e s := by
  unfold hostRead
  repeat' split
  all_goals exact ⟨_, _, rfl⟩

/-- A write does nothing but answer, or it is the write action of a mapped register of a block out of reset. -/
theorem hostWrite_cases (a : HostAddr) (v : Word) (s : State) :
    (∃ e, hostWrite a v s = respond 0#32 e s) ∨
    (∃ r, s.rstN = true ∧ hostRegAt a = some r ∧ hostWrite a v s = respond 0#32 false (hostRegWrite v s r)) := by
  cases hrst : s.rstN with
  | false => exact .inl ⟨false, by simp [hostWrite, hrst]⟩
  | true =>
    cases hreg : hostRegAt a with
    | none => exact .inl ⟨true, hostWrite_unmapped v hrst hreg⟩
    | some r => exact .inr ⟨r, rfl, rfl, hostWrite_mapped v hrst hreg⟩

/-- Out of reset a read at the offset of a named register answers its value (R25). -/
theorem hostRead_named {s : State} (hrst : s.rstN = true) {r : HostReg} (hr : r ∈ namedRegs) :
    hostRead (offsetOf r) s = respond (hostRegValue s r) false s :=
  hostRead_mapped hrst (hostRegAt_offsetOf_named r hr)

theorem hostRead_buffer {s : State} (hrst : s.rstN = true) {a : HostAddr} (h4 : a.toNat % 4 = 0)
    (h1 : 0x100 ≤ a.toNat) (h2 : a.toNat < 0x300) : hostRead a s = respond (bufWord s a.toNat) false s := by
  obtain htx | hrx := Nat.lt_or_ge a.toNat 0x200
  · exact hostRead_mapped hrst (hostRegAt_txbuf h4 h1 htx)
  · exact hostRead_mapped hrst (hostRegAt_rxbuf h4 hrx h2)

/-! ## The guards of a write (R246, R271) -/

theorem unlessBusy_idle {s : State} (h : s.seq = .idle) (act : State → State) : unlessBusy s act = act s := by
  simp [unlessBusy, h]

theorem unlessBusy_busy {s : State} {o : Opcode} {n : BitVec 8} (h : s.seq = .run o n) (act : State → State) :
    unlessBusy s act = overrun s := by
  simp [unlessBusy, h]

/-- What holds after an overrun, and after the action on an idle block, holds after the guarded action. -/
theorem unlessBusy_of {P : State → Prop} {s : State} {act : State → State} (hbusy : P (overrun s))
    (hidle : s.seq = .idle → P (act s)) : P (unlessBusy s act) := by
  cases hseq : s.seq with
  | idle => rw [unlessBusy_idle hseq]; exact hidle hseq
  | run o n => rw [unlessBusy_busy hseq]; exact hbusy

theorem whenReady_of {P : State → Prop} {s : State} {act : State → State} (hreset : P s) (hbusy : P (overrun s))
    (hready : Ready s → P (act s)) : P (whenReady s act) := by
  cases hrst : s.rstN with
  | false => rw [whenReady_inReset hrst]; exact hreset
  | true =>
    cases hseq : s.seq with
    | idle => rw [whenReady_idle hrst hseq]; exact hready ⟨hrst, hseq⟩
    | run o n => rw [whenReady_busy hrst hseq]; exact hbusy

/-! ## What no host access changes (R21, R75, R89) -/

/-- Everything no host access can write is in `t` as in `s`: all but STATUS, the argument registers and INTEN, the
latches, the sequencer, the buffers and the answer on the bus. -/
def HostLeaves (s t : State) : Prop :=
  { t with
    status := s.status
    csr := { t.csr with
      doneIe := s.csr.doneIe, dioIe := s.csr.dioIe, txlen := s.csr.txlen, freq := s.csr.freq, pwr := s.csr.pwr }
    lat := s.lat
    seq := s.seq
    mem := s.mem
    bus := s.bus } = s

theorem submit_leaves (w : Word) (s : State) : HostLeaves s (submit w s) := by
  unfold submit
  split
  · rfl
  · obtain ⟨-, -, h⟩ | ⟨-, h⟩ := beginCommand_cases w _ s <;> rw [h] <;> rfl

theorem hostRegWrite_leaves (v : Word) (s : State) (r : HostReg) : HostLeaves s (hostRegWrite v s r) := by
  have hbusy : HostLeaves s (overrun s) := rfl
  cases r
  case cmd => exact unlessBusy_of hbusy fun _ => submit_leaves v s
  case txlen | freq | pwr | txbuf =>
    rw [hostRegWrite]
    refine unlessBusy_of hbusy fun _ => ?_
    rfl
  all_goals rfl

theorem hostRegWrite_rstN (v : Word) (s : State) (r : HostReg) : (hostRegWrite v s r).rstN = s.rstN :=
  congrArg (·.rstN) (hostRegWrite_leaves v s r)

theorem hostAccess_leaves (acc : HostAccess) (s : State) : HostLeaves s (hostAccess acc s) := by
  cases acc with
  | read a =>
    obtain ⟨d, e, hread⟩ := hostRead_eq_respond a s
    rw [hostAccess, hread]
    rfl
  | write a v =>
    rw [hostAccess]
    obtain ⟨e, hwrite⟩ | ⟨r, -, -, hwrite⟩ := hostWrite_cases a v s <;> rw [hwrite]
    · rfl
    · exact hostRegWrite_leaves v s r

/-- While a command runs a host access changes STATUS, INTEN and its answer at most (R246). -/
theorem hostRegWrite_busy {s : State} {o : Opcode} {n : BitVec 8} (hseq : s.seq = .run o n) (v : Word) (r : HostReg) :
    { hostRegWrite v s r with
      status := s.status
      csr := { (hostRegWrite v s r).csr with doneIe := s.csr.doneIe, dioIe := s.csr.dioIe } } = s := by
  cases r
  case cmd | txlen | freq | pwr | txbuf => simp only [hostRegWrite, unlessBusy_busy hseq]; rfl
  all_goals rfl

theorem hostAccess_busy (acc : HostAccess) {s : State} {o : Opcode} {n : BitVec 8} (hseq : s.seq = .run o n) :
    { hostAccess acc s with
      status := s.status
      csr := { (hostAccess acc s).csr with doneIe := s.csr.doneIe, dioIe := s.csr.dioIe }
      bus := s.bus } = s := by
  cases acc with
  | read a =>
    obtain ⟨d, e, hread⟩ := hostRead_eq_respond a s
    rw [hostAccess, hread]
    rfl
  | write a v =>
    rw [hostAccess]
    obtain ⟨e, hwrite⟩ | ⟨r, -, -, hwrite⟩ := hostWrite_cases a v s <;> rw [hwrite]
    · rfl
    · exact congrArg (fun t : State => { t with bus := s.bus }) (hostRegWrite_busy hseq v r)

/-! ## Reading back (R72, R73) -/

/-- The answer on the bus is no register's value. -/
theorem hostRegValue_respond (d : Word) (e : Bool) (s : State) (r : HostReg) :
    hostRegValue (respond d e s) r = hostRegValue s r := by
  cases r <;> rfl

/-- A read that follows a write of the same register returns what the register then holds. -/
theorem hostRead_hostWrite {a : HostAddr} {s : State} {r : HostReg} (v : Word) (hrst : s.rstN = true)
    (h : hostRegAt a = some r) : (hostRead a (hostWrite a v s)).bus.rdata = hostRegValue (hostRegWrite v s r) r := by
  have hread := hostRead_mapped (s := respond 0#32 false (hostRegWrite v s r)) ((hostRegWrite_rstN v s r).trans hrst) h
  rw [hostWrite_mapped v hrst h, hread, respond_bus, hostRegValue_respond]

/-- A host write to a register or buffer the host cannot write is ignored (R73). -/
theorem hostRegWrite_readOnly {a : HostAddr} (h4 : a.toNat % 4 = 0)
    (ha : a.toNat = 0x00C ∨ (0x01C ≤ a.toNat ∧ a.toNat < 0x048) ∨ (0x200 ≤ a.toNat ∧ a.toNat < 0x300)) (v : Word)
    (s : State) : ∃ r, hostRegAt a = some r ∧ hostRegWrite v s r = s := by
  obtain hbuf | hlow : (0x200 ≤ a.toNat ∧ a.toNat < 0x300) ∨ a.toNat < 0x048 := by omega
  · exact ⟨_, hostRegAt_rxbuf h4 hbuf.1 hbuf.2, rfl⟩
  · obtain ⟨r, hr, rfl⟩ := exists_named_offset h4 hlow
    refine ⟨r, hostRegAt_offsetOf_named r hr, ?_⟩
    have hwritable : r ∉ [HostReg.cmd, .status, .inten, .txlen, .freq, .pwr] := by
      intro hmem
      have hoffsets : ∀ q ∈ [HostReg.cmd, .status, .inten, .txlen, .freq, .pwr],
          ¬ ((offsetOf q).toNat = 0x00C ∨ 0x01C ≤ (offsetOf q).toNat) := by decide
      exact hoffsets r hmem (by omega)
    simp only [List.mem_cons, List.not_mem_nil, or_false, not_or] at hwritable
    cases r <;> simp_all [hostRegWrite, namedRegs]

/-! ## Bytes of the buffers (R40, R41, R71) -/

/-- The bytes of a word written to the buffers, and every other byte (R71). -/
theorem bufByte_writeWord (s : State) (x : Nat) (v : Word) :
    (∀ k, k < 4 → bufByte { s with mem := Memory.writeBytes s.mem x (wordBytes v) } (x + k) = v.extractLsb' (8 * k) 8) ∧
    (∀ y, ¬ (x ≤ y ∧ y < x + 4) →
      bufByte { s with mem := Memory.writeBytes s.mem x (wordBytes v) } y = bufByte s y) := by
  have hlen : (wordBytes v).length = 4 := rfl
  refine ⟨fun k hk => ?_, fun y hy => ?_⟩
  · rw [bufByte, Memory.find?_writeBytes, if_pos (by omega), Nat.add_sub_cancel_left]
    interval_cases k <;> rfl
  · rw [bufByte, Memory.find?_writeBytes, if_neg (by rw [hlen]; exact hy), bufByte]

/-- A word written to the buffers reads back (R71). -/
theorem bufWord_writeWord (s : State) (x : Nat) (v : Word) :
    bufWord { s with mem := Memory.writeBytes s.mem x (wordBytes v) } x = v := by
  obtain ⟨hbytes, -⟩ := bufByte_writeWord s x v
  have h0 := hbytes 0 (by decide)
  have h1 := hbytes 1 (by decide)
  have h2 := hbytes 2 (by decide)
  have h3 := hbytes 3 (by decide)
  rw [Nat.add_zero] at h0
  rw [bufWord, h0, h1, h2, h3]
  exact wordOfBytes_wordBytes v

theorem beginCommand_bufByte (w : Word) (i : Instr) (s : State) (x : Nat) :
    bufByte (beginCommand w i s) x = bufByte s x := by
  obtain ⟨-, -, h⟩ | ⟨-, h⟩ := beginCommand_cases w i s <;> rw [h] <;> exact bufByte_congr rfl rfl x

theorem submit_bufByte (w : Word) (s : State) (x : Nat) : bufByte (submit w s) x = bufByte s x := by
  unfold submit
  split
  · exact bufByte_congr rfl rfl x
  · exact beginCommand_bufByte w _ s x

/-- The host writes no buffer byte outside TXBUF (R41). -/
theorem hostRegWrite_bufByte {a : HostAddr} {r : HostReg} (hr : hostRegAt a = some r) (v : Word) (s : State) {x : Nat}
    (hx : ¬ (0x100 ≤ x ∧ x < 0x200)) : bufByte (hostRegWrite v s r) x = bufByte s x := by
  have hbusy : bufByte (overrun s) x = bufByte s x := bufByte_congr rfl rfl x
  cases r
  case cmd => exact unlessBusy_of (P := fun t => bufByte t x = bufByte s x) hbusy fun _ => submit_bufByte v s x
  case txlen | freq | pwr =>
    refine unlessBusy_of (P := fun t => bufByte t x = bufByte s x) hbusy fun _ => ?_
    exact bufByte_congr rfl rfl x
  case txbuf y =>
    obtain ⟨-, h4, h1, h2⟩ := txbuf_of_hostRegAt hr
    refine unlessBusy_of (P := fun t => bufByte t x = bufByte s x) hbusy fun _ => ?_
    exact (bufByte_writeWord s y v).2 x (by omega)
  all_goals exact bufByte_congr rfl rfl x

theorem hostAccess_bufByte (acc : HostAccess) (s : State) {x : Nat} (hx : ¬ (0x100 ≤ x ∧ x < 0x200)) :
    bufByte (hostAccess acc s) x = bufByte s x := by
  cases acc with
  | read a =>
    obtain ⟨d, e, hread⟩ := hostRead_eq_respond a s
    rw [hostAccess, hread]
    exact bufByte_congr rfl rfl x
  | write a v =>
    rw [hostAccess]
    obtain ⟨e, hwrite⟩ | ⟨r, -, hr, hwrite⟩ := hostWrite_cases a v s <;> rw [hwrite]
    · exact bufByte_congr rfl rfl x
    · exact (bufByte_congr rfl rfl x).trans (hostRegWrite_bufByte hr v s hx)

end Sys2Proof.Machine
end

section
/-! SUPPORT. The block's invariant is kept by every step. `Body` is what the operations inside a label keep, whatever
label comes next; `Entry` is what the label that comes next asks for. -/

namespace Sys2Proof.Machine

open Sys2Proof.Claims

/-! ## Values of the result registers (R204, R229) -/

theorem rssiValue_range (r : Byte) : -157 ≤ (rssiValue r).toInt ∧ (rssiValue r).toInt ≤ 98 := by
  have hr := r.isLt
  have hval : (rssiValue r).toInt = (r.toNat : Int) - 157 := by
    rw [rssiValue, BitVec.toInt_signExtend_of_le (by decide), BitVec.toInt_ofInt]
    simp only [Config.rssiOffset]
    exact Int.bmod_eq_of_le (by omega) (by omega)
  omega

theorem peffValue_range (w : Word) : 5 ≤ (peffValue w).toNat ∧ (peffValue w).toNat ≤ 23 := by
  have hclamp : 5 ≤ clampPower w ∧ clampPower w ≤ 23 := by
    simp only [clampPower, Config.pMin, Config.pMax]
    omega
  rw [peffValue, BitVec.toNat_ofInt]
  omega

theorem lengthAccepted_iff {nb : Byte} : lengthAccepted nb = true ↔ 0 < nb.toNat ∧ nb.toNat < 64 :=
  decide_eq_true_iff

/-! ## What an operation inside a label keeps -/

/-- The word spells a command of opcode `o` (R113). -/
def Spells (o : Opcode) (w : Word) : Prop := ∃ i, decodeWord w = .ok i ∧ i.opcode = o

/-- The invariant of a running command `o`, but for what depends on the label it stands at and on `reset_n`. -/
structure Body (o : Opcode) (s : State) : Prop where
  outOfReset : s.rstN = true
  spells : Spells o s.lat.cmd
  clean : s.status.done = false ∧ s.status.errCode = .none
  wires : WiresIdle s
  waits : s.csr.txwaits = s.lat.k ∧ s.lat.k.toNat ≤ 1000
  count : s.csr.rxnb = s.lat.nb
  results : ResultsInRange s
  outcomes : OutcomesAgree s
  memory : Memory.wf s.mem = true
  vars : Cells.risesFrom 0 s.vars = true

theorem wiresIdle_spiWrite (a : ChipAddr) (bytes : List Byte) (s : State) : WiresIdle (spiWrite a bytes s) := by
  simp [WiresIdle, Spi.afterTransaction]

theorem wiresIdle_spiRead (a : ChipAddr) (n : Nat) (s : State) : WiresIdle (spiRead a n s) := by
  simp [WiresIdle, Spi.afterTransaction]

namespace Body

variable {o : Opcode} {s : State}

theorem spiWrite (h : Body o s) (a : ChipAddr) (bytes : List Byte) : Body o (spiWrite a bytes s) :=
  { h with wires := wiresIdle_spiWrite a bytes s }

theorem spiRead (h : Body o s) (a : ChipAddr) (n : Nat) : Body o (spiRead a n s) :=
  { h with wires := wiresIdle_spiRead a n s }

theorem regWrite (h : Body o s) (a : ChipAddr) (v : Byte) : Body o (regWrite a v s) := h.spiWrite a [v]

theorem regRead (h : Body o s) (a : ChipAddr) : Body o (regRead a s) := h.spiRead a 1

theorem waitMs (h : Body o s) (m : Nat) : Body o (waitMs m s) := { h with }

theorem setReset (h : Body o s) (level : Bool) : Body o (setReset level s) := { h with }

theorem setRdata (h : Body o s) (d : Byte) : Body o (setRdata d s) := { h with }

theorem setIrqf (h : Body o s) (f : Byte) : Body o (setIrqf f s) := { h with }

theorem setTxOutcome (h : Body o s) (out : TxOutcome) : Body o (setTxOutcome out s) := { h with }

theorem setAvail (h : Body o s) (b : Bool) : Body o (setAvail b s) := { h with }

theorem setCfgDone (h : Body o s) : Body o (setCfgDone s) := { h with }

theorem setRxAddr (h : Body o s) (a : Byte) : Body o (setRxAddr a s) := { h with }

theorem setNb (h : Body o s) (nb : Byte) : Body o (setNb nb s) := { h with count := rfl }

theorem sendStart (h : Body o s) : Body o (sendStart s) := { h with waits := ⟨rfl, by simp⟩ }

/-- One more wait is counted only below the bound (R184). -/
theorem sendWaited (h : Body o s) (hk : s.lat.k.toNat < 1000) : Body o (sendWaited s) :=
  { h with waits := ⟨rfl, by simp only [sendWaited_lat, BitVec.toNat_add, BitVec.toNat_ofNat]; omega⟩ }

theorem setRx (h : Body o s) {valid : Bool} {out : RxOutcome} (hv : valid = true ↔ out = .accepted) :
    Body o (setRx valid out s) := by
  obtain ⟨-, habsent⟩ := h.outcomes
  exact { h with outcomes := ⟨hv, habsent⟩ }

theorem initIdentified (h : Body o s) (v : Byte) : Body o (initIdentified v s) := by
  obtain ⟨hvalid, -⟩ := h.outcomes
  exact { h with outcomes := ⟨hvalid, fun _ => rfl⟩ }

theorem configStart (h : Body o s) : Body o (configStart s) := by
  obtain ⟨hlen, hlo, hhi, hsnr, -⟩ := h.results
  exact { h with results := ⟨hlen, hlo, hhi, hsnr, .inr (peffValue_range _)⟩ }

theorem setRssi (h : Body o s) (r : Byte) : Body o (setRssi r s) := by
  obtain ⟨hlen, -, -, hsnr, hpeff⟩ := h.results
  exact { h with results := ⟨hlen, (rssiValue_range r).1, (rssiValue_range r).2, hsnr, hpeff⟩ }

theorem setSnr (h : Body o s) (v : Byte) : Body o (setSnr v s) := by
  obtain ⟨hlen, hlo, hhi, -, hpeff⟩ := h.results
  exact { h with results := ⟨hlen, hlo, hhi, rfl, hpeff⟩ }

theorem setRxlen (h : Body o s) {n : Byte} (hn : n.toNat ≤ 63) : Body o (setRxlen n s) := by
  obtain ⟨-, hlo, hhi, hsnr, hpeff⟩ := h.results
  exact { h with results := ⟨hn, hlo, hhi, hsnr, hpeff⟩ }

/-- A block that stays inside RXBUF keeps the canonical form. -/
theorem storeRx (h : Body o s) {i : Nat} {d : List Byte} (hd : i + d.length ≤ 256) : Body o (storeRx i d s) :=
  { h with memory := Memory.wf_writeBytes d h.memory (by simp [rxBufBase]; omega) (by simp [rxBufBase]; omega) }

/-- Payload, terminator and RXLEN of an accepted length (R202, R206). -/
theorem recvPayload (h : Body o s) {d : List Byte} (hd : d.length = s.lat.nb.toNat)
    (hnb : lengthAccepted s.lat.nb = true) : Body o (recvPayload d s) := by
  rw [lengthAccepted_iff] at hnb
  have hpayload := h.storeRx (i := 0) (d := d) (by omega)
  have hterminated := hpayload.storeRx (i := s.lat.nb.toNat) (d := [0x00#8]) (by simp; omega)
  exact hterminated.setRxlen (by omega)

end Body

/-! ## Entering a label, or ending the command -/

/-- What label `m` of command `o` asks of the state that enters it: it exists (R23), it may have `reset_n` low (R222), a
wait of SEND is below the bound (R184), RECV is past its length check only with an accepted length (R203). -/
structure Entry (o : Opcode) (m : BitVec 8) (s : State) : Prop where
  label : m.toNat ≤ lastLabel o
  resetLine : s.resetN = false → o = .init ∧ (m = 2#8 ∨ m = 3#8)
  wait : o = .send → m = 8#8 → s.lat.k.toNat < 1000
  length : o = .recv → 2 ≤ m.toNat → m.toNat ≤ 7 → lengthAccepted s.lat.nb = true

/-- A label with `reset_n` high that is neither SEND's wait nor in the accepted part of RECV asks only to exist. -/
theorem Entry.of_plain {o : Opcode} {m : BitVec 8} {s : State} (hline : s.resetN = true) (hm : m.toNat ≤ lastLabel o)
    (hsend : o = .send → m ≠ 8#8) (hrecv : o = .recv → m.toNat < 2 ∨ 7 < m.toNat) : Entry o m s where
  label := hm
  resetLine hlow := nomatch hline.symm.trans hlow
  wait ho h := absurd h (hsend ho)
  length ho h2 h7 := by have := hrecv ho; omega

theorem runsLatchedWord_run {s : State} {o : Opcode} {n : BitVec 8} (hseq : s.seq = .run o n) :
    RunsLatchedWord s ↔ Spells o s.lat.cmd := by
  simp only [RunsLatchedWord, Spells, hseq]
  cases decodeWord s.lat.cmd <;> simp

/-- In a state of the invariant the running command meets `Body` and the label it stands at is entered. -/
theorem BlockInvariant.body {s : State} {o : Opcode} {n : BitVec 8} (h : BlockInvariant s) (hrst : s.rstN = true)
    (hseq : s.seq = .run o n) : Body o s := by
  have hclean := h.clean
  simp only [RunningIsClean, hseq] at hclean
  obtain ⟨hwaits, hcount, hbound, -⟩ := h.counters
  exact ⟨hrst, (runsLatchedWord_run hseq).mp h.latched, hclean, h.wires, ⟨hwaits, hbound⟩, hcount, h.results,
    h.outcomes, h.memory, h.vars⟩

theorem BlockInvariant.entry {s : State} {o : Opcode} {n : BitVec 8} (h : BlockInvariant s)
    (hseq : s.seq = .run o n) : Entry o n s := by
  obtain ⟨-, -, -, hwait⟩ := h.counters
  have hlabel := h.label
  have hline := h.resetLine
  have hlength := h.length
  simp only [LabelDefined, hseq] at hlabel
  simp only [ResetLineLow, hseq, Seq.run.injEq] at hline
  simp only [LengthChecked, hseq] at hlength
  refine ⟨hlabel, fun hlow => ?_, ?_, ?_⟩
  · obtain ⟨ho, hn⟩ | ⟨ho, hn⟩ := hline hlow
    · exact ⟨ho, .inl hn⟩
    · exact ⟨ho, .inr hn⟩
  · rintro rfl rfl
    exact hwait hseq
  · rintro rfl
    exact hlength

/-- A running state whose command meets `Body` and whose label is entered is a state of the invariant. -/
theorem Body.blockInvariant {s : State} {o : Opcode} {n : BitVec 8} (h : Body o s) (hseq : s.seq = .run o n)
    (he : Entry o n s) : BlockInvariant s where
  label := by simp only [LabelDefined, hseq]; exact he.label
  latched := (runsLatchedWord_run hseq).mpr h.spells
  clean := by simp only [RunningIsClean, hseq]; exact h.clean
  wires := h.wires
  resetLine hlow := by
    obtain ⟨rfl, rfl | rfl⟩ := he.resetLine hlow
    · exact .inl hseq
    · exact .inr hseq
  counters := by
    refine ⟨h.waits.1, h.count, h.waits.2, fun hwait => ?_⟩
    obtain ⟨rfl, rfl⟩ := Seq.run.inj (hseq.symm.trans hwait)
    exact he.wait rfl rfl
  length := by
    have hlength := he.length
    simp only [LengthChecked, hseq]
    cases o with
    | recv => exact hlength rfl
    | _ => trivial
  results := h.results
  outcomes := h.outcomes
  memory := h.memory
  vars := h.vars
  inReset hlow := nomatch h.outOfReset.symm.trans hlow

theorem Body.goto {o : Opcode} {m : BitVec 8} {s : State} (h : Body o s) (he : Entry o m s) :
    BlockInvariant (goto o m s) :=
  have hgoto : Body o (Machine.goto o m s) := { h with }
  have hentry : Entry o m (Machine.goto o m s) := { he with }
  hgoto.blockInvariant rfl hentry

theorem Body.finish {o : Opcode} {s : State} (h : Body o s) (hline : s.resetN = true) : BlockInvariant (finish s) where
  label := trivial
  latched := trivial
  clean := trivial
  wires := h.wires
  resetLine hlow := nomatch hline.symm.trans hlow
  counters := ⟨h.waits.1, h.count, h.waits.2, nofun⟩
  length := trivial
  results := h.results
  outcomes := h.outcomes
  memory := h.memory
  vars := h.vars
  inReset hlow := nomatch h.outOfReset.symm.trans hlow

end Sys2Proof.Machine
end

section
/-! SUPPORT. Every label, every submission, every host access and every agent's move keeps the block's invariant; and a
state of the invariant is never at a label that does not exist. -/

namespace Sys2Proof.Machine

open Sys2Proof.Claims

/-! ## The labels of each command -/

theorem Entry.resetN_high {o : Opcode} {n : BitVec 8} {s : State} (h : Entry o n s) (ho : o ≠ .init) :
    s.resetN = true := by
  cases hline : s.resetN with
  | true => rfl
  | false => exact absurd (h.resetLine hline).1 ho

theorem regwSteps_keeps {s : State} (h : Body .regw s) (hline : s.resetN = true) :
    ∀ {n : Nat} {t : State}, regwSteps n s = some t → BlockInvariant t
  | 0, _, rfl => (h.regWrite _ _).finish hline
  | _ + 1, _, ht => nomatch ht

theorem regrSteps_keeps {s : State} (h : Body .regr s) (hline : s.resetN = true) :
    ∀ {n : Nat} {t : State}, regrSteps n s = some t → BlockInvariant t
  | 0, _, rfl => ((h.regRead _).setRdata _).finish hline
  | _ + 1, _, ht => nomatch ht

theorem fifowSteps_keeps {s : State} (h : Body .fifow s) (hline : s.resetN = true) :
    ∀ {n : Nat} {t : State}, fifowSteps n s = some t → BlockInvariant t
  | 0, _, rfl => (h.spiWrite _ _).finish hline
  | _ + 1, _, ht => nomatch ht

theorem fiforSteps_keeps {s : State} (h : Body .fifor s) (hline : s.resetN = true) :
    ∀ {n : Nat} {t : State}, fiforSteps n s = some t → BlockInvariant t
  | 0, _, rfl =>
    have hfits : 0 + (spiAnswer s.par.regs.fifo (opB s).toNat s).length ≤ 256 := by
      have := (opB s).isLt
      simp only [spiAnswer_length]
      omega
    ((h.spiRead _ _).storeRx hfits).finish hline
  | _ + 1, _, ht => nomatch ht

theorem stbySteps_keeps {s : State} (h : Body .stby s) (hline : s.resetN = true) :
    ∀ {n : Nat} {t : State}, stbySteps n s = some t → BlockInvariant t
  | 0, _, rfl => (h.regWrite _ _).finish hline
  | _ + 1, _, ht => nomatch ht

theorem txmSteps_keeps {s : State} (h : Body .txm s) (hline : s.resetN = true) :
    ∀ {n : Nat} {t : State}, txmSteps n s = some t → BlockInvariant t
  | 0, _, rfl => (h.regWrite _ _).finish hline
  | _ + 1, _, ht => nomatch ht

theorem rxmSteps_keeps {s : State} (h : Body .rxm s) (hline : s.resetN = true) :
    ∀ {n : Nat} {t : State}, rxmSteps n s = some t → BlockInvariant t
  | 0, _, rfl | 1, _, rfl | 2, _, rfl => (h.regWrite _ _).goto (.of_plain hline (by decide) nofun nofun)
  | 3, _, rfl => (h.regWrite _ _).finish hline
  | _ + 4, _, ht => nomatch ht

theorem availSteps_keeps {s : State} (h : Body .avail s) (hline : s.resetN = true) :
    ∀ {n : Nat} {t : State}, availSteps n s = some t → BlockInvariant t
  | 0, _, rfl => (((h.regRead _).setIrqf _).setAvail _).finish hline
  | _ + 1, _, ht => nomatch ht

/-- Label 7 of SEND waits once more only while the count is below 1000 (R183, R184). -/
theorem sendPolled_keeps {s : State} (h : Body .send s) (hline : s.resetN = true) (f : Byte) :
    BlockInvariant (sendPolled f s) := by
  unfold sendPolled
  split
  · exact ((h.setIrqf f).setTxOutcome .delivered).goto (.of_plain hline (by decide) (by decide) nofun)
  · split
    · exact ((h.setIrqf f).setTxOutcome .timeout).goto (.of_plain hline (by decide) (by decide) nofun)
    · rename_i hk
      have hbelow : s.lat.k.toNat < 1000 := lt_of_le_of_ne h.waits.2 hk
      exact (h.setIrqf f).goto ⟨by decide, fun hlow => (nomatch hline.symm.trans hlow), fun _ _ => hbelow, nofun⟩

theorem sendSteps_keeps {s : State} (h : Body .send s) (hline : s.resetN = true) :
    ∀ {n : Nat} {t : State}, (n = 8 → s.lat.k.toNat < 1000) → sendSteps n s = some t → BlockInvariant t
  | 0, _, _, rfl => ((h.regWrite _ _).sendStart).goto (.of_plain hline (by decide) (by decide) nofun)
  | 2, _, _, rfl => (h.spiWrite _ _).goto (.of_plain hline (by decide) (by decide) nofun)
  | 1, _, _, rfl | 3, _, _, rfl | 4, _, _, rfl | 5, _, _, rfl | 6, _, _, rfl | 9, _, _, rfl =>
    (h.regWrite _ _).goto (.of_plain hline (by decide) (by decide) nofun)
  | 7, _, _, rfl => sendPolled_keeps (h.regRead _) hline _
  | 8, _, hk, rfl => ((h.waitMs _).sendWaited (hk rfl)).goto (.of_plain hline (by decide) (by decide) nofun)
  | 10, _, _, rfl => (h.regWrite _ _).finish hline
  | _ + 11, _, _, ht => nomatch ht

theorem recvFlags_keeps {s : State} (h : Body .recv s) (hline : s.resetN = true) (f : Byte) :
    BlockInvariant (recvFlags f s) := by
  unfold recvFlags
  split
  · exact (h.setIrqf f).goto (.of_plain hline (by decide) nofun (by decide))
  · exact ((h.setIrqf f).setRx (by decide)).finish hline

/-- Label 1 of RECV enters its accepted part only with an accepted length (R203). -/
theorem recvLength_keeps {s : State} (h : Body .recv s) (hline : s.resetN = true) (nb : Byte) :
    BlockInvariant (recvLength nb s) := by
  unfold recvLength
  split
  · rename_i hnb
    exact (h.setNb nb).goto ⟨by decide, fun hlow => (nomatch hline.symm.trans hlow), nofun, fun _ _ _ => hnb⟩
  · exact (h.setNb nb).goto (.of_plain hline (by decide) nofun (by decide))

/-- The labels of RECV's accepted part keep the accepted length. -/
theorem Entry.of_accepted {m : BitVec 8} {s : State} (hline : s.resetN = true) (hm : m.toNat ≤ 8)
    (hnb : lengthAccepted s.lat.nb = true) : Entry .recv m s :=
  ⟨hm, fun hlow => (nomatch hline.symm.trans hlow), nofun, fun _ _ _ => hnb⟩

theorem recvSteps_keeps {s : State} (h : Body .recv s) (hline : s.resetN = true) :
    ∀ {n : Nat} {t : State}, (2 ≤ n → n ≤ 7 → lengthAccepted s.lat.nb = true) → recvSteps n s = some t →
      BlockInvariant t
  | 0, _, _, rfl => recvFlags_keeps (h.regRead _) hline _
  | 1, _, _, rfl => recvLength_keeps (h.regRead _) hline _
  | 2, _, hnb, rfl => ((h.regRead _).setRxAddr _).goto (.of_accepted hline (by decide) (hnb (by decide) (by decide)))
  | 3, _, hnb, rfl => (h.regWrite _ _).goto (.of_accepted hline (by decide) (hnb (by decide) (by decide)))
  | 4, _, hnb, rfl =>
    have hnb := hnb (by decide) (by decide)
    ((h.spiRead _ _).recvPayload (spiAnswer_length _ _ _) hnb).goto (.of_accepted hline (by decide) hnb)
  | 5, _, hnb, rfl => ((h.regRead _).setRssi _).goto (.of_accepted hline (by decide) (hnb (by decide) (by decide)))
  | 6, _, hnb, rfl => ((h.regRead _).setSnr _).goto (.of_accepted hline (by decide) (hnb (by decide) (by decide)))
  | 7, _, _, rfl => ((h.regWrite _ _).setRx (by decide)).finish hline
  | 8, _, _, rfl => ((h.regWrite _ _).setRx (by decide)).finish hline
  | _ + 9, _, _, ht => nomatch ht

/-- INIT is at label 2 or 3 while `reset_n` is low: label 1 drives it low, label 3 high again (R222). -/
theorem initSteps_keeps {s : State} (h : Body .init s) :
    ∀ {n : Nat} {t : State}, (s.resetN = false → n = 2 ∨ n = 3) → initSteps n s = some t → BlockInvariant t
  | 0, _, _, rfl => (h.setReset true).goto (.of_plain rfl (by decide) nofun nofun)
  | 1, _, _, rfl => (h.setReset false).goto ⟨by decide, fun _ => ⟨rfl, .inl rfl⟩, nofun, nofun⟩
  | 2, _, _, rfl => (h.waitMs _).goto ⟨by decide, fun _ => ⟨rfl, .inr rfl⟩, nofun, nofun⟩
  | 3, _, _, rfl => (h.setReset true).goto (.of_plain rfl (by decide) nofun nofun)
  | 4, _, hlow, rfl =>
    (h.waitMs _).goto (.of_plain (Bool.eq_true_of_not_eq_false (mt hlow (by decide))) (by decide) nofun nofun)
  | 5, _, hlow, rfl =>
    (h.regWrite _ _).goto (.of_plain (Bool.eq_true_of_not_eq_false (mt hlow (by decide))) (by decide) nofun nofun)
  | 6, _, hlow, rfl =>
    (((h.regRead _).setRdata _).initIdentified _).finish (Bool.eq_true_of_not_eq_false (mt hlow (by decide)))
  | _ + 7, _, _, ht => nomatch ht

/-- Label 6 of CONFIG goes to label 7 or to label 8 (R226, R230). -/
theorem configAmplifier_keeps {s : State} (h : Body .config s) (hline : s.resetN = true) (high : Bool) :
    BlockInvariant (goto .config (if high then 7#8 else 8#8) s) := by
  cases high <;> exact h.goto (.of_plain hline (by decide) nofun nofun)

theorem configSteps_keeps {s : State} (h : Body .config s) (hline : s.resetN = true) :
    ∀ {n : Nat} {t : State}, configSteps n s = some t → BlockInvariant t
  | 0, _, rfl => ((h.regWrite _ _).configStart).goto (.of_plain hline (by decide) nofun nofun)
  | 6, _, rfl => configAmplifier_keeps (h.regWrite _ _) hline _
  | 1, _, rfl | 2, _, rfl | 3, _, rfl | 4, _, rfl | 5, _, rfl | 7, _, rfl | 8, _, rfl | 9, _, rfl | 10, _, rfl
  | 11, _, rfl | 12, _, rfl | 13, _, rfl => (h.regWrite _ _).goto (.of_plain hline (by decide) nofun nofun)
  | 14, _, rfl => ((h.regWrite _ _).setCfgDone).finish hline
  | _ + 15, _, ht => nomatch ht

/-- Every label of the running command keeps the invariant. -/
theorem stepsOf_keeps {o : Opcode} {n : BitVec 8} {s t : State} (h : BlockInvariant s) (hrst : s.rstN = true)
    (hseq : s.seq = .run o n) (ht : stepsOf o n.toNat s = some t) : BlockInvariant t := by
  have hbody := h.body hrst hseq
  have hentry := h.entry hseq
  cases o with
  | regw => exact regwSteps_keeps hbody (hentry.resetN_high (by decide)) ht
  | regr => exact regrSteps_keeps hbody (hentry.resetN_high (by decide)) ht
  | fifow => exact fifowSteps_keeps hbody (hentry.resetN_high (by decide)) ht
  | fifor => exact fiforSteps_keeps hbody (hentry.resetN_high (by decide)) ht
  | stby => exact stbySteps_keeps hbody (hentry.resetN_high (by decide)) ht
  | txm => exact txmSteps_keeps hbody (hentry.resetN_high (by decide)) ht
  | rxm => exact rxmSteps_keeps hbody (hentry.resetN_high (by decide)) ht
  | avail => exact availSteps_keeps hbody (hentry.resetN_high (by decide)) ht
  | config => exact configSteps_keeps hbody (hentry.resetN_high (by decide)) ht
  | send =>
    exact sendSteps_keeps hbody (hentry.resetN_high (by decide))
      (fun hn => hentry.wait rfl (BitVec.eq_of_toNat_eq hn)) ht
  | recv => exact recvSteps_keeps hbody (hentry.resetN_high (by decide)) (hentry.length rfl) ht
  | init =>
    refine initSteps_keeps hbody (fun hlow => ?_) ht
    obtain ⟨-, rfl | rfl⟩ := hentry.resetLine hlow
    · exact .inl rfl
    · exact .inr rfl

theorem seqMove_keeps {s t : State} (h : BlockInvariant s) (ht : seqMove s = .next t) : BlockInvariant t := by
  cases hrst : s.rstN with
  | false => rw [seqMove_inReset hrst] at ht; cases ht; exact h
  | true =>
    obtain rfl | ⟨o, n, hseq, hlabel⟩ := seqMove_cases ht
    · exact h
    · exact stepsOf_keeps h hrst hseq hlabel

/-! ## Submission, refusal, overrun (R240, R241, R246) -/

theorem BlockInvariant.resetN_high_of_idle {s : State} (h : BlockInvariant s) (hseq : s.seq = .idle) :
    s.resetN = true := by
  cases hline : s.resetN with
  | true => rfl
  | false =>
    have hinit := h.resetLine hline
    simp [hseq] at hinit

theorem overrun_keeps {s : State} (h : BlockInvariant s) (hrst : s.rstN = true) : BlockInvariant (overrun s) :=
  { h with inReset := fun hlow => (nomatch hrst.symm.trans hlow) }

theorem cmdError_keeps {s : State} (h : BlockInvariant s) (hready : Ready s) (code : ErrCode) (w : Word) :
    BlockInvariant (cmdError code (latchWord w s)) where
  label := trivial
  latched := trivial
  clean := trivial
  wires := h.wires
  resetLine hlow := nomatch (h.resetN_high_of_idle hready.2).symm.trans hlow
  counters := by
    obtain ⟨hwaits, hcount, hbound, -⟩ := h.counters
    exact ⟨hwaits, hcount, hbound, nofun⟩
  length := trivial
  results := h.results
  outcomes := h.outcomes
  memory := h.memory
  vars := h.vars
  inReset hlow := nomatch hready.1.symm.trans hlow

theorem accept_keeps {s : State} (h : BlockInvariant s) (hready : Ready s) {o : Opcode} {w : Word}
    (hw : Spells o w) : BlockInvariant (accept o (latchWord w s)) := by
  obtain ⟨hwaits, hcount, hbound, -⟩ := h.counters
  have hbody : Body o (accept o (latchWord w s)) :=
    ⟨hready.1, hw, ⟨rfl, rfl⟩, h.wires, ⟨hwaits, hbound⟩, hcount, h.results, h.outcomes, h.memory, h.vars⟩
  exact hbody.blockInvariant rfl
    (.of_plain (h.resetN_high_of_idle hready.2) (Nat.zero_le _) (fun _ => by decide) (fun _ => .inl (by decide)))

theorem beginCommand_keeps {s : State} (h : BlockInvariant s) (hready : Ready s) {w : Word} {i : Instr}
    (hw : Spells i.opcode w) : BlockInvariant (beginCommand w i s) := by
  obtain ⟨-, -, hrefused⟩ | ⟨-, haccepted⟩ := beginCommand_cases w i s
  · rw [hrefused]; exact cmdError_keeps h hready _ _
  · rw [haccepted]; exact accept_keeps h hready hw

theorem submit_keeps {s : State} (h : BlockInvariant s) (hready : Ready s) (w : Word) :
    BlockInvariant (submit w s) := by
  unfold submit
  split
  · exact cmdError_keeps h hready _ _
  · rename_i i hw
    exact beginCommand_keeps h hready ⟨i, hw, rfl⟩

/-- What keeps the invariant on a ready block keeps it behind the guards of a command. -/
theorem whenReady_keeps {s : State} {act : State → State} (h : BlockInvariant s)
    (hact : Ready s → BlockInvariant (act s)) : BlockInvariant (whenReady s act) := by
  cases hrst : s.rstN with
  | false => rw [whenReady_inReset hrst]; exact h
  | true => exact whenReady_of h (overrun_keeps h hrst) hact

theorem writeCmd_keeps {s : State} (h : BlockInvariant s) (w : Word) : BlockInvariant (writeCmd w s) :=
  whenReady_keeps h fun hready => submit_keeps h hready w

/-! ## A whole command -/

/-- The encoder writes a word of the command's opcode, even for an operand that does not fit its field (log 23). -/
theorem spells_encode (i : Instr) : Spells i.opcode (encode i) := by
  have hlow (a : Byte) : ((a.setWidth 7).setWidth 8 : Byte).toNat < 128 := by bv_omega
  have hsame (o : Opcode) (a b : Byte) : encodeFields o ((a.setWidth 7).setWidth 8) b = encodeFields o a b := by
    simp [encodeFields]
  cases i with
  | regw a v =>
    refine ⟨.regw ((a.setWidth 7).setWidth 8) v, ?_, rfl⟩
    rw [encode, ← hsame]
    exact decodeWord_encode (i := .regw _ v) (decide_eq_true (hlow a))
  | regr a =>
    refine ⟨.regr ((a.setWidth 7).setWidth 8), ?_, rfl⟩
    rw [encode, ← hsame]
    exact decodeWord_encode (i := .regr _) (decide_eq_true (hlow a))
  | _ => exact ⟨_, decodeWord_encode rfl, rfl⟩

theorem runTable_keeps {o : Opcode} (fuel : Nat) {s : State} (h : BlockInvariant s) (hrst : s.rstN = true)
    (hseq : s.seq = .idle ∨ ∃ m, s.seq = .run o m) : BlockInvariant (runTable (stepsOf o) fuel s) := by
  induction fuel generalizing s with
  | zero => exact h
  | succ fuel ih =>
    obtain hidle | ⟨m, hrun⟩ := hseq
    · rw [runTable_idle _ _ hidle]; exact h
    · cases ht : stepsOf o m.toNat s with
      | none => rw [runTable_none hrun ht]; exact h
      | some t =>
        obtain ⟨hframe, hnext⟩ := stepsOf_frame ht
        rw [runTable_step hrun ht]
        exact ih (stepsOf_keeps h hrst hrun ht) (hframe.rstN.trans hrst) (hnext.imp And.left id)

theorem exec_keeps {i : Instr} {s t : State} (h : BlockInvariant s) (ht : exec i s = .next t) : BlockInvariant t := by
  obtain ⟨fuel, hexec⟩ := exec_eq i s
  rw [hexec] at ht
  cases ht
  refine whenReady_keeps h fun hready => ?_
  refine runTable_keeps fuel (beginCommand_keeps h hready (spells_encode i)) ?_ ?_
  · exact (beginCommand_frame _ i s).1.trans hready.1
  · exact (beginCommand_goesOnBelow _ i s).imp id fun ⟨m, hm, _⟩ => ⟨m, hm⟩

theorem stepCommand_keeps {w : Word} {s t : State} (h : BlockInvariant s) (ht : stepCommand w s = .next t) :
    BlockInvariant t := by
  unfold stepCommand at ht
  split at ht
  · exact exec_keeps h ht
  · cases ht; exact whenReady_keeps h fun hready => cmdError_keeps h hready _ _
  · cases ht; exact writeCmd_keeps h w

/-! ## Host accesses -/

theorem respond_keeps {s : State} (h : BlockInvariant s) (d : Word) (e : Bool) : BlockInvariant (respond d e s) :=
  { h with }

/-- A write of an argument register keeps the invariant, whatever it stores. -/
theorem setArguments_keeps {s : State} (h : BlockInvariant s) (hrst : s.rstN = true) (doneIe dioIe : Bool)
    (txlen : BitVec 16) (freq pwr : Word) : BlockInvariant { s with
      csr := { s.csr with doneIe := doneIe, dioIe := dioIe, txlen := txlen, freq := freq, pwr := pwr } } :=
  { h with inReset := fun hlow => (nomatch hrst.symm.trans hlow) }

theorem statusClear_keeps {s : State} (h : BlockInvariant s) (hrst : s.rstN = true) (v : Word) :
    BlockInvariant { s with status := s.status.clear v } where
  label := h.label
  latched := h.latched
  clean := by
    have hclean := h.clean
    unfold RunningIsClean at hclean ⊢
    split at hclean
    · rename_i hseq; simp [hseq]
    · rename_i hseq; simp [hseq, Status.clear, hclean]
  wires := h.wires
  resetLine := h.resetLine
  counters := h.counters
  length := h.length
  results := h.results
  outcomes := h.outcomes
  memory := h.memory
  vars := h.vars
  inReset hlow := nomatch hrst.symm.trans hlow

theorem writeTxbuf_keeps {s : State} (h : BlockInvariant s) (hrst : s.rstN = true) {x : Nat} (h1 : 0x100 ≤ x)
    (h2 : x + 4 ≤ 0x300) (v : Word) : BlockInvariant { s with mem := Memory.writeBytes s.mem x (wordBytes v) } :=
  { h with
    memory := Memory.wf_writeBytes (wordBytes v) h.memory h1 (by simpa [wordBytes] using h2)
    inReset := fun hlow => (nomatch hrst.symm.trans hlow) }

theorem hostRegWrite_keeps {s : State} (h : BlockInvariant s) (hrst : s.rstN = true) {a : HostAddr} {r : HostReg}
    (hr : hostRegAt a = some r) (v : Word) : BlockInvariant (hostRegWrite v s r) := by
  have hbusy := overrun_keeps h hrst
  cases r with
  | cmd => exact unlessBusy_of hbusy fun hidle => submit_keeps h ⟨hrst, hidle⟩ v
  | status => exact statusClear_keeps h hrst v
  | inten => exact setArguments_keeps h hrst _ _ _ _ _
  | txlen | freq | pwr =>
    rw [hostRegWrite]
    refine unlessBusy_of hbusy fun _ => ?_
    exact setArguments_keeps h hrst _ _ _ _ _
  | txbuf x =>
    obtain ⟨-, -, h1, h2⟩ := txbuf_of_hostRegAt hr
    rw [hostRegWrite]
    refine unlessBusy_of hbusy fun _ => ?_
    exact writeTxbuf_keeps h hrst h1 (by omega) v
  | _ => exact h

theorem hostRead_keeps {s : State} (h : BlockInvariant s) (a : HostAddr) : BlockInvariant (hostRead a s) := by
  obtain ⟨d, e, hread⟩ := hostRead_eq_respond a s
  rw [hread]
  exact respond_keeps h d e

theorem hostAccess_keeps {s : State} (h : BlockInvariant s) (acc : HostAccess) : BlockInvariant (hostAccess acc s) := by
  cases acc with
  | read a => exact hostRead_keeps h a
  | write a v =>
    rw [hostAccess]
    obtain ⟨e, hwrite⟩ | ⟨r, hrst, hr, hwrite⟩ := hostWrite_cases a v s <;> rw [hwrite]
    · exact respond_keeps h _ _
    · exact respond_keeps (hostRegWrite_keeps h hrst hr v) _ _

/-! ## The other agents' moves -/

/-- Everything a clk cycle can do: the host's access, the sequencer's part, the DIO0 part, in this order. -/
theorem cycleMove_cases {acc : Option HostAccess} {ends level : Bool} {s t : State}
    (h : cycleMove acc ends level s = .next t) :
    ∃ u, cycleSeq ends (cycleHost acc s) = .next u ∧ t = cycleDio level u := by
  unfold cycleMove at h
  split at h
  case h_1 u hseq => cases h; exact ⟨u, hseq, rfl⟩
  all_goals cases h

theorem cycleHost_keeps {s : State} (h : BlockInvariant s) (acc : Option HostAccess) :
    BlockInvariant (cycleHost acc s) := by
  cases acc with
  | none => exact h
  | some acc => exact hostAccess_keeps h acc

theorem cycleSeq_keeps {ends : Bool} {s t : State} (h : BlockInvariant s) (ht : cycleSeq ends s = .next t) :
    BlockInvariant t := by
  cases ends with
  | true => exact seqMove_keeps h ht
  | false => cases ht; exact h

theorem cycleDio_keeps {s : State} (h : BlockInvariant s) (level : Bool) : BlockInvariant (cycleDio level s) := by
  unfold cycleDio
  split
  · rename_i hrst
    exact { h with inReset := fun hlow => (nomatch hrst.symm.trans hlow) }
  · exact h

theorem cycleMove_keeps {acc : Option HostAccess} {ends level : Bool} {s t : State} (h : BlockInvariant s)
    (ht : cycleMove acc ends level s = .next t) : BlockInvariant t := by
  obtain ⟨u, hseq, rfl⟩ := cycleMove_cases ht
  exact cycleDio_keeps (cycleSeq_keeps (cycleHost_keeps h acc) hseq) level

theorem sequencerMove_keeps {s t : State} (h : BlockInvariant s) (ht : sequencerMove s = .next t) :
    BlockInvariant t := by
  unfold sequencerMove at ht
  split at ht
  · cases ht; exact h
  · exact seqMove_keeps h ht

theorem timeBaseMove_keeps {s t : State} (h : BlockInvariant s) (ht : timeBaseMove s = .next t) :
    BlockInvariant t := by
  unfold timeBaseMove at ht
  split at ht
  · exact seqMove_keeps h ht
  · cases ht; exact h

theorem dio0RiseMove_keeps {s : State} (h : BlockInvariant s) : BlockInvariant (dio0RiseMove s) := by
  unfold dio0RiseMove
  split
  · rename_i hrst
    exact { h with inReset := fun hlow => (nomatch hrst.symm.trans hlow) }
  · exact h

/-- A block at its reset values meets the invariant, whatever the variables of the host and the agents hold. -/
theorem AtReset.blockInvariant {s : State} (h : AtReset s) (hvars : Cells.risesFrom 0 s.vars = true) :
    BlockInvariant s := by
  have hreset := h
  obtain ⟨hstatus, hcsr, ⟨-, -, -, -, hk, hnb⟩, hseq, hmem, hspi, hline, -, -⟩ := hreset
  refine ⟨?_, ?_, ?_, ?_, ?_, ?_, ?_, ?_, ?_, ?_, hvars, fun _ => h⟩
  · simp [LabelDefined, hseq]
  · simp [RunsLatchedWord, hseq]
  · simp [RunningIsClean, hseq]
  · simp [WiresIdle, hspi, Spi.reset]
  · simp [ResetLineLow, hline]
  · simp [CountersAgree, hcsr, Csr.reset, hk, hnb, hseq]
  · simp [LengthChecked, hseq]
  · rw [ResultsInRange, hcsr]; decide
  · simp [OutcomesAgree, hstatus, Status.reset]
  · simp [hmem]

theorem atReset_reset : AtReset State.reset :=
  ⟨rfl, rfl, ⟨rfl, rfl, rfl, rfl, rfl, rfl⟩, rfl, rfl, rfl, rfl, rfl, rfl⟩

theorem setRst_keeps {s : State} (h : BlockInvariant s) (level : Bool) : BlockInvariant (setRst level s) := by
  cases level with
  | true => exact { h with inReset := nofun }
  | false =>
    have hreset : AtReset (blockReset s) := atReset_reset
    exact hreset.blockInvariant h.vars

theorem deliverMove_keeps {s : State} (h : BlockInvariant s) (bytes : List Byte) (addr rssi snr : Byte) :
    BlockInvariant (deliverMove bytes addr rssi snr s) := { h with }

theorem waitDoneMove_keeps {s : State} (h : BlockInvariant s) : BlockInvariant (waitDoneMove s) := by
  have hread := hostRead_keeps h statusAddr
  unfold waitDoneMove
  split
  · exact { hread with }
  · exact hread

theorem readInto_keeps {s : State} (h : BlockInvariant s) (r : Nat) (a : HostAddr) :
    BlockInvariant (readInto r a s) := by
  have hread := hostRead_keeps h a
  exact { hread with vars := Cells.risesFrom_write hread.vars (Nat.zero_le r) }

theorem agentMove_keeps {m : Input} {s t : State} (h : BlockInvariant s) (ht : agentMove m s = .next t) :
    BlockInvariant t := by
  cases m with
  | command w => cases ht; exact writeCmd_keeps h w
  | host acc => cases ht; exact hostAccess_keeps h acc
  | sequencer => exact sequencerMove_keeps h ht
  | timeBase => exact timeBaseMove_keeps h ht
  | dio0Rise => cases ht; exact dio0RiseMove_keeps h
  | cycle acc ends level => exact cycleMove_keeps h ht
  | rst level => cases ht; exact setRst_keeps h level
  | deliver bytes addr rssi snr => cases ht; exact deliverMove_keeps h bytes addr rssi snr
  | waitDone => cases ht; exact waitDoneMove_keeps h
  | readInto r a => cases ht; exact readInto_keeps h r a

/-- Taking a move off the schedule leaves the block as it is. -/
theorem withInputs_keeps {s : State} (h : BlockInvariant s) (rest : List Input) :
    BlockInvariant { s with inputs := rest } := { h with }

/-- Settles O48: every operation inside a label keeps `Body`, every label enters the next one as `Entry` asks, and every
other agent's move leaves the parts of the invariant alone or writes them in range. -/
theorem stepKeepsInvariant : Obligations.StepKeepsInvariant := by
  intro s t h ht
  unfold step at ht
  split at ht
  · exact seqMove_keeps h ht
  · exact stepCommand_keeps (withInputs_keeps h _) ht
  · exact agentMove_keeps (withInputs_keeps h _) ht

/-! ## A next state from every state of the invariant (R23, R245) -/

/-- The sequencer of a state of the invariant stands at a label its command has. -/
theorem seqMove_next {s : State} (h : BlockInvariant s) : ∃ t, seqMove s = .next t := by
  cases hrst : s.rstN with
  | false => exact ⟨s, seqMove_inReset hrst⟩
  | true =>
    cases hseq : s.seq with
    | idle => exact ⟨s, seqMove_idle hseq⟩
    | run o n =>
      obtain ⟨t, ht⟩ := Option.isSome_iff_exists.mp (stepsOf_isSome s (h.entry hseq).label)
      exact ⟨t, (seqMove_run_iff hrst hseq).mpr ht⟩

theorem sequencerMove_next {s : State} (h : BlockInvariant s) : ∃ t, sequencerMove s = .next t := by
  unfold sequencerMove
  split
  · exact ⟨s, rfl⟩
  · exact seqMove_next h

theorem timeBaseMove_next {s : State} (h : BlockInvariant s) : ∃ t, timeBaseMove s = .next t := by
  unfold timeBaseMove
  split
  · exact seqMove_next h
  · exact ⟨s, rfl⟩

theorem cycleMove_next {s : State} (h : BlockInvariant s) (acc : Option HostAccess) (ends level : Bool) :
    ∃ t, cycleMove acc ends level s = .next t := by
  have hseq : ∃ t, cycleSeq ends (cycleHost acc s) = .next t := by
    cases ends with
    | true => exact seqMove_next (cycleHost_keeps h acc)
    | false => exact ⟨_, rfl⟩
  obtain ⟨t, ht⟩ := hseq
  exact ⟨cycleDio level t, by simp [cycleMove, ht]⟩

theorem agentMove_next {s : State} (h : BlockInvariant s) (m : Input) : ∃ t, agentMove m s = .next t := by
  cases m with
  | sequencer => exact sequencerMove_next h
  | timeBase => exact timeBaseMove_next h
  | cycle acc ends level => exact cycleMove_next h acc ends level
  | _ => exact ⟨_, rfl⟩

/-- A submitted word is run or refused, and both are a next state. -/
theorem stepCommand_next (w : Word) (s : State) : ∃ t, stepCommand w s = .next t := by
  unfold stepCommand
  split
  · rename_i i _ _
    obtain ⟨fuel, hexec⟩ := exec_eq i s
    exact ⟨_, hexec⟩
  · exact ⟨_, rfl⟩
  · exact ⟨_, rfl⟩

/-- Settles O49: the one fault is a sequencer move at a label that does not exist, which the invariant rules out. -/
theorem invariantStatesNeverStop : Obligations.InvariantStatesNeverStop := by
  intro s h
  unfold step
  split
  · exact seqMove_next h
  · exact stepCommand_next _ _
  · exact agentMove_next (withInputs_keeps h _) _

end Sys2Proof.Machine
end

section
/-! SUPPORT. Proofs about the state of the block (10_state.md): what a command leaves alone, what a host access reads,
writes and leaves alone, and the words of STATUS, INTEN and FSM. -/

namespace Sys2Proof.Machine

open Sys2Proof.Claims

/-! ## What a whole command leaves alone (R51, R250) -/

theorem runTable_frame (o : Opcode) (fuel : Nat) (s : State) : LabelFrame s (runTable (stepsOf o) fuel s) :=
  runTable_induct (P := LabelFrame s) (fun _ _ _ h hlabel => h.trans (stepsOf_frame hlabel).1) fuel (.refl s)

theorem runTable_txbuf (o : Opcode) (fuel : Nat) (s : State) :
    ∀ x, x < 0x200 → bufByte (runTable (stepsOf o) fuel s) x = bufByte s x :=
  runTable_induct (P := fun t => ∀ x, x < 0x200 → bufByte t x = bufByte s x)
    (fun _ _ _ h hlabel x hx => (stepsOf_txbuf hlabel hx).trans (h x hx)) fuel fun _ _ => rfl

/-- A command that has come to its end, by its last label or by its refusal, has set DONE (R241, R243). -/
theorem runTable_done {o : Opcode} (fuel : Nat) {s : State} (h : s.seq = .idle → s.status.done = true) :
    (runTable (stepsOf o) fuel s).seq = .idle → (runTable (stepsOf o) fuel s).status.done = true := by
  refine runTable_induct (P := fun t => t.seq = .idle → t.status.done = true) (fun u t n _ hlabel hidle => ?_) fuel h
  obtain ⟨-, ⟨-, hdone⟩ | ⟨m, hrun⟩⟩ := stepsOf_frame hlabel
  · exact hdone
  · rw [hidle] at hrun; cases hrun

/-- A submission leaves alone what every label does, but for the latched word. -/
theorem beginCommand_labelFrame (w : Word) (i : Instr) (s : State) :
    LabelFrame { s with lat := { s.lat with cmd := w } } (beginCommand w i s) := by
  obtain ⟨-, -, h⟩ | ⟨-, h⟩ := beginCommand_cases w i s <;> rw [h] <;> constructor <;> rfl

theorem beginCommand_done (w : Word) (i : Instr) (s : State) :
    (beginCommand w i s).seq = .idle → (beginCommand w i s).status.done = true := by
  obtain ⟨-, -, h⟩ | ⟨-, h⟩ := beginCommand_cases w i s <;> rw [h]
  · exact fun _ => rfl
  · exact nofun

/-- Settles O25: a command is its submission and a run through its labels, and each of them leaves the frame alone. -/
theorem commandsKeepWhatIsNotTheirs : Obligations.CommandsKeepWhatIsNotTheirs := by
  intro i s t hready hexec
  obtain ⟨-, htrace⟩ := exec_growsTo hexec
  rw [exec_eq_runTable i hready] at hexec
  cases hexec
  have hframe := (beginCommand_labelFrame (encode i) i s).trans (runTable_frame i.opcode (mostLabels i.opcode) _)
  have hidle := runTable_ends (beginCommand_goesOnBelow (encode i) i s)
  have hdone := runTable_done (mostLabels i.opcode) (beginCommand_done (encode i) i s) hidle
  refine ⟨hframe.doneIe, hframe.dioIe, hframe.txlen, hframe.freq, hframe.pwr, hframe.ovr, hframe.dio, fun x hx => ?_,
    ⟨hframe.sync, hframe.rstN, hframe.par, hframe.inputs, hframe.vars, hframe.epoch⟩, hidle, hdone, hframe.cmd, htrace⟩
  exact (runTable_txbuf i.opcode _ _ x hx).trans (beginCommand_bufByte _ i s x)

/-- Settles O10: a whole command on a busy block is the overrun its submission meets. -/
theorem busyBlockDropsCommands : Obligations.BusyBlockDropsCommands := by
  intro s i o n hrst hseq
  obtain ⟨fuel, hexec⟩ := exec_eq i s
  rw [hexec, whenReady_busy hrst hseq]
  rfl

/-! ## The words of STATUS, INTEN, FSM and of the buffers -/

theorem busy_iff (s : State) : busy s = true ↔ s.seq ≠ .idle := by
  unfold busy
  split <;> simp_all

/-- The one-bit fields of STATUS stand at bits 0 to 9, least significant first (R27). -/
theorem statusWord_bits (s : State) :
    (statusWord s).getLsbD 0 = busy s ∧ (statusWord s).getLsbD 1 = s.status.done ∧
    (statusWord s).getLsbD 2 = s.status.ovr ∧ (statusWord s).getLsbD 3 = s.status.dio ∧
    (statusWord s).getLsbD 4 = s.status.chipAbsent ∧ (statusWord s).getLsbD 5 = s.status.avail ∧
    (statusWord s).getLsbD 6 = s.status.rxValid ∧ (statusWord s).getLsbD 7 = s.status.initDone ∧
    (statusWord s).getLsbD 8 = s.status.cfgDone ∧ (statusWord s).getLsbD 9 = s.sync.s2 := by
  simp only [statusWord, bit, BitVec.getLsbD_append]
  simp

/-- The wider fields of STATUS, and the reserved bits beside them (R27). -/
theorem statusWord_fields (s : State) :
    (statusWord s).extractLsb' 10 2 = s.status.txOutcome.toBits ∧
    (statusWord s).extractLsb' 12 2 = s.status.rxOutcome.toBits ∧ (statusWord s).extractLsb' 14 2 = 0#2 ∧
    (statusWord s).extractLsb' 16 4 = s.status.errCode.toBits ∧ (statusWord s).extractLsb' 20 12 = 0#12 := by
  simp (disch := decide) only [statusWord, BitVec.extractLsb'_append_eq_of_le, BitVec.extractLsb'_append_eq_of_add_le]
  simp

/-- Settles O34: the STATUS word is a concatenation, each field is read at its offset in it. -/
theorem statusWordLayout : Obligations.StatusWordLayout := by
  refine ⟨by decide, by decide, by decide, fun s => ?_⟩
  obtain ⟨hbusy, h1, h2, h3, h4, h5, h6, h7, h8, h9⟩ := statusWord_bits s
  refine ⟨?_, h1, h2, h3, h4, h5, h6, h7, h8, h9, statusWord_fields s⟩
  rw [hbusy]
  exact busy_iff s

/-- The FSM word of a running command holds its label and its opcode, and zeros above (R46). -/
theorem fsmWord_run {s : State} {o : Opcode} {n : BitVec 8} (h : s.seq = .run o n) :
    (fsmWord s).extractLsb' 0 8 = n ∧ (fsmWord s).extractLsb' 8 8 = o.toByte ∧
      (fsmWord s).extractLsb' 16 16 = 0#16 := by
  simp only [fsmWord, h]
  simp (disch := decide) only [BitVec.extractLsb'_append_eq_of_le, BitVec.extractLsb'_append_eq_of_add_le]
  simp

theorem fsmWord_idle {s : State} (h : s.seq = .idle) : fsmWord s = 0#32 := by
  simp [fsmWord, h]

theorem intenWord_bits (s : State) :
    (intenWord s).getLsbD 0 = s.csr.doneIe ∧ (intenWord s).getLsbD 1 = s.csr.dioIe ∧
      (intenWord s).extractLsb' 2 30 = 0#30 := by
  refine ⟨?_, ?_, ?_⟩
  · simp only [intenWord, bit, BitVec.getLsbD_append]; simp
  · simp only [intenWord, bit, BitVec.getLsbD_append]; simp
  · simp (disch := decide) only [intenWord, BitVec.extractLsb'_append_eq_of_le]; simp

/-- A byte of a buffer word is the byte at its address, the lowest address in the lowest bits (R71). -/
theorem extractLsb'_bufWord (s : State) (x : Nat) {k : Nat} (hk : k < 4) :
    (bufWord s x).extractLsb' (8 * k) 8 = bufByte s (x + k) := by
  have hbytes := wordBytes_wordOfBytes (bufByte s x) (bufByte s (x + 1)) (bufByte s (x + 2)) (bufByte s (x + 3))
  simp only [wordBytes, List.cons.injEq, and_true] at hbytes
  obtain ⟨h0, h1, h2, h3⟩ := hbytes
  interval_cases k
  · exact h0
  · exact h1
  · exact h2
  · exact h3

/-! ## Host reads (R72, R74) -/

/-- Settles O35: FSM is the named register at 0x044. -/
theorem fsmWordShowsTheSequencer : Obligations.FsmWordShowsTheSequencer := by
  intro s hrst
  have hread : hostRead 0x044#12 s = respond (fsmWord s) false s := hostRead_named hrst (r := .fsm) (by decide)
  rw [hread]
  exact ⟨fun o n hseq => fsmWord_run hseq, fun hseq => fsmWord_idle hseq⟩

/-- Settles O31: a mapped address names a register, an unmapped one names none; each value is that of the register the
address names. -/
theorem hostAccessesAnswerOrError : Obligations.HostAccessesAnswerOrError := by
  intro a v s hrst
  have hnamed : ∀ r ∈ namedRegs, (hostRead (offsetOf r) s).bus.rdata = hostRegValue s r := fun r hr => by
    rw [hostRead_named hrst hr]; rfl
  have hzext {w : Nat} (r : HostReg) (hr : r ∈ namedRegs) (x : BitVec w) (hx : hostRegValue s r = x.setWidth 32)
      (hw : w ≤ 32) : (hostRead (offsetOf r) s).bus.rdata.toNat = x.toNat := by
    rw [hnamed r hr, hx, BitVec.toNat_setWidth_of_le hw]
  refine ⟨fun ⟨h4, hin⟩ => ?mapped, fun hout => ?unmapped, hnamed .cmd (by decide), hnamed .status (by decide), ?inten,
    hzext .rdata (by decide) _ rfl (by decide), hzext .txlen (by decide) _ rfl (by decide), hnamed .freq (by decide),
    hnamed .pwr (by decide), hzext .irqf (by decide) _ rfl (by decide), hzext .rxnb (by decide) _ rfl (by decide),
    hzext .rxlen (by decide) _ rfl (by decide), hnamed .rssi (by decide), hzext .snr (by decide) _ rfl (by decide),
    hnamed .snrdb (by decide), hzext .frf (by decide) _ rfl (by decide), hzext .peff (by decide) _ rfl (by decide),
    hzext .txn (by decide) _ rfl (by decide), hzext .txwaits (by decide) _ rfl (by decide), hnamed .fsm (by decide),
    fun h4 h1 h2 k hk => ?buffer⟩
  case mapped =>
    obtain ⟨r, hr⟩ := hostRegAt_isSome_of_mapped h4 hin
    exact ⟨r, hr, hostRead_mapped hrst hr, by rw [hostAccess, hostWrite_mapped v hrst hr]; rfl⟩
  case unmapped =>
    have hnone : hostRegAt a = none := Option.eq_none_iff_forall_ne_some.mpr fun r hr => hout (mapped_of_hostRegAt hr)
    exact ⟨hostRead_unmapped hrst hnone, _, hostWrite_unmapped v hrst hnone⟩
  case inten =>
    have hinten : (hostRead 0x008#12 s).bus.rdata = intenWord s := hnamed .inten (by decide)
    rw [hinten]
    exact intenWord_bits s
  case buffer =>
    rw [hostRead_buffer hrst h4 h1 h2]
    exact extractLsb'_bufWord s a.toNat hk

/-- Settles O44: at the reset values each register reads 0. -/
theorem resetStateReadsZero : Obligations.ResetStateReadsZero := by
  refine ⟨atReset_reset, fun a h4 hlt => ?_, rfl, rfl, rfl, rfl, rfl⟩
  obtain ⟨r, hr, rfl⟩ := exists_named_offset h4 hlt
  have hzero : ∀ r ∈ namedRegs, hostRegValue State.reset r = 0#32 := by decide
  rw [hostRead_named rfl hr, hzero r hr]
  rfl

/-! ## Host writes (R73) -/

theorem submit_cmd (w : Word) (s : State) : (submit w s).lat.cmd = w := by
  unfold submit
  split
  · rfl
  · exact (beginCommand_labelFrame w _ s).cmd

/-- Settles O36: whatever becomes of the word, its submission latches it, and CMD reads the latch. -/
theorem cmdReadsTheLastSubmittedWord : Obligations.CmdReadsTheLastSubmittedWord := by
  intro s w ⟨hrst, hseq⟩
  rw [hostRead_hostWrite (r := .cmd) w hrst rfl, hostRegWrite, unlessBusy_idle hseq]
  exact submit_cmd w s

/-- Settles O37: an idle block accepts a command that is not a CONFIG out of range. -/
theorem submissionLatchesArguments : Obligations.SubmissionLatchesArguments := by
  intro s w i ⟨hrst, hseq⟩ hdecode hfreq
  have haccepted : ¬ (i.opcode = .config ∧ freqInRange s.csr.freq = false) := by
    rintro ⟨hconfig, hrange⟩
    have hi : i = .config := by cases i <;> simp_all [Instr.opcode]
    exact absurd (hfreq hi) (of_decide_eq_false hrange)
  have hsubmit : submit w s = accept i.opcode (latchWord w s) := by
    rw [submit, hdecode]
    exact if_neg haccepted
  refine ⟨0#32, (hostWrite_mapped (r := .cmd) w hrst rfl).trans ?_⟩
  rw [hostRegWrite, unlessBusy_idle hseq, hsubmit]
  rfl

/-- INTEN as it reads after a write of `v`: the low two bits (R29). -/
theorem intenWord_write (v : Word) :
    (0#30 ++ bit (v.getLsbD 1) ++ bit (v.getLsbD 0) : Word) = (v.setWidth 2).setWidth 32 := by
  apply BitVec.eq_of_getLsbD_eq
  intro i hi
  simp only [bit, BitVec.getLsbD_append, BitVec.getLsbD_setWidth]
  obtain h | h | h : i = 0 ∨ i = 1 ∨ 2 ≤ i := by omega
  · subst h; simp
  · subst h; simp
  · have h1 : ¬ i < 1 := by omega
    have h2 : ¬ i - 1 < 1 := by omega
    have h3 : ¬ i < 2 := by omega
    simp [h1, h2, h3]

/-- Settles O32: each write is its register's action on an idle block, and the read after it returns the register. -/
theorem argumentRegistersReadBack : Obligations.ArgumentRegistersReadBack := by
  intro s v ⟨hrst, hseq⟩
  have htxlen : hostRegWrite v s .txlen = { s with csr := { s.csr with txlen := v.setWidth 16 } } := by
    rw [hostRegWrite, unlessBusy_idle hseq]
  have hfreq : hostRegWrite v s .freq = { s with csr := { s.csr with freq := v } } := by
    rw [hostRegWrite, unlessBusy_idle hseq]
  have hpwr : hostRegWrite v s .pwr = { s with csr := { s.csr with pwr := v } } := by
    rw [hostRegWrite, unlessBusy_idle hseq]
  refine ⟨?_, ?_, ?_, ?_, ⟨0#32, ?_⟩, ⟨0#32, ?_⟩, ⟨0#32, ?_⟩, ⟨0#32, ?_⟩, fun a h4 h1 h2 => ?txbuf,
    fun a h4 ha => ⟨0#32, ?readOnly⟩⟩
  · rw [hostRead_hostWrite (r := .txlen) v hrst rfl, htxlen]; rfl
  · rw [hostRead_hostWrite (r := .freq) v hrst rfl, hfreq]; rfl
  · rw [hostRead_hostWrite (r := .pwr) v hrst rfl, hpwr]; rfl
  · rw [hostRead_hostWrite (r := .inten) v hrst rfl]; exact intenWord_write v
  · rw [hostWrite_mapped (r := .txlen) v hrst rfl, htxlen, BitVec.setWidth_eq_extractLsb' (by decide)]; rfl
  · rw [hostWrite_mapped (r := .freq) v hrst rfl, hfreq]; rfl
  · rw [hostWrite_mapped (r := .pwr) v hrst rfl, hpwr]; rfl
  · rw [hostWrite_mapped (r := .inten) v hrst rfl]; rfl
  case txbuf =>
    have hreg := hostRegAt_txbuf h4 h1 h2
    have hwrite : hostRegWrite v s (.txbuf a.toNat) =
        { s with mem := Memory.writeBytes s.mem a.toNat (wordBytes v) } := by
      rw [hostRegWrite, unlessBusy_idle hseq]
    obtain ⟨hbytes, hothers⟩ := bufByte_writeWord s a.toNat v
    rw [hostRead_hostWrite v hrst hreg, hostWrite_mapped v hrst hreg, hwrite]
    exact ⟨bufWord_writeWord s a.toNat v, hbytes, hothers, rfl⟩
  case readOnly =>
    obtain ⟨r, hreg, hignored⟩ := hostRegWrite_readOnly h4 ha v s
    rw [hostWrite_mapped v hrst hreg, hignored]
    rfl

/-! ## A host write in a cycle (R28, R252) -/

theorem seqMove_frame {s t : State} (h : seqMove s = .next t) : LabelFrame s t := by
  obtain rfl | ⟨o, n, -, hlabel⟩ := seqMove_cases h
  · exact .refl _
  · exact (stepsOf_frame hlabel).1

theorem cycleSeq_frame {ends : Bool} {s t : State} (h : cycleSeq ends s = .next t) : LabelFrame s t := by
  cases ends with
  | true => exact seqMove_frame h
  | false => cases h; exact .refl s

/-- Settles O33: the write is `Status.clear` whatever BUSY is; in a cycle the DIO0 part comes after it and after the
sequencer's, which leaves the synchroniser alone. -/
theorem statusIsWriteOneToClear : Obligations.StatusIsWriteOneToClear := by
  have hwrite (s : State) (w : Word) (hrst : s.rstN = true) :
      hostWrite 0x004#12 w s = respond 0#32 false { s with status := s.status.clear w } :=
    hostWrite_mapped (r := .status) w hrst rfl
  refine ⟨fun s w hrst => ⟨0#32, ?_⟩, fun s t w ends level hrst hs2 hprev hcycle => ?_⟩
  · have hclear (x y : Bool) : (x && !y) = if y then false else x := by cases x <;> cases y <;> rfl
    rw [hwrite s w hrst]
    simp only [respond, Status.clear, hclear]
  · obtain ⟨u, hseq, rfl⟩ := cycleMove_cases hcycle
    rw [cycleHost, hostAccess, hwrite s w hrst] at hseq
    have hframe := cycleSeq_frame hseq
    have hu : u.rstN = true := hframe.rstN.trans hrst
    have hsync : u.sync = s.sync := hframe.sync
    simp [cycleDio, hu, hsync, hs2, hprev]

/-- Settles O39: the fields are read off what a host access leaves alone, at any time and while a command runs. -/
theorem hostCannotDisturbResultsOrCommand : Obligations.HostCannotDisturbResultsOrCommand := by
  intro acc s
  have hleaves := hostAccess_leaves acc s
  refine ⟨⟨congrArg (·.csr.rdata) hleaves, congrArg (·.csr.irqf) hleaves, congrArg (·.csr.rxnb) hleaves,
    congrArg (·.csr.rxlen) hleaves, congrArg (·.csr.rssi) hleaves, congrArg (·.csr.snr) hleaves,
    congrArg (·.csr.snrdb) hleaves, congrArg (·.csr.frf) hleaves, congrArg (·.csr.peff) hleaves,
    congrArg (·.csr.txn) hleaves, congrArg (·.csr.txwaits) hleaves, fun x hx => hostAccess_bufByte acc s hx,
    congrArg (·.chip) hleaves, congrArg (·.trace) hleaves, congrArg (·.spi) hleaves, congrArg (·.resetN) hleaves,
    congrArg (·.par) hleaves, congrArg (·.vars) hleaves⟩, fun o n hseq => ?_⟩
  have hbusy := hostAccess_busy acc hseq
  exact ⟨congrArg (·.lat) hbusy, congrArg (·.seq) hbusy, congrArg (·.csr.txlen) hbusy, congrArg (·.csr.freq) hbusy,
    congrArg (·.csr.pwr) hbusy, congrArg (·.mem) hbusy⟩

/-! ## READ (R118) -/

/-- What is scheduled has no part in a read. -/
theorem hostRead_withInputs (a : HostAddr) (s : State) (rest : List Input) :
    hostRead a { s with inputs := rest } = { hostRead a s with inputs := rest } := by
  unfold hostRead
  split
  · split
    · rename_i r _
      cases r <;> rfl
    · rfl
  · rfl

/-- Settles O56: READ is a host read and one write of the host's variables; the offsets are the register map's. -/
theorem readDirectiveAssignsItsVariable : Obligations.ReadDirectiveAssignsItsVariable := by
  have hoffset {x : Nat} (hx : x < 0x300) : (BitVec.ofNat 12 x).toNat = x := Nat.mod_eq_of_lt (by omega)
  refine ⟨fun s p r name rest hin => ?read, fun s name hrst hname => ?value, hostRegAt_offsetOf_named,
    fun x h4 h1 h2 => ?txbuf, fun x h4 h1 h2 => ?rxbuf⟩
  case read =>
    have hstep : step s = .next (readInto r (offsetOf name) { s with inputs := rest }) := step_of_agent hin nofun
    rw [readInto, hostRead_withInputs] at hstep
    obtain ⟨d, e, hread⟩ := hostRead_eq_respond (offsetOf name) s
    rw [hread] at hstep ⊢
    exact ⟨_, hstep, rfl, Cells.find?_write_same _ _ _, fun q hq => Cells.find?_write_other _ _ hq, rfl, rfl⟩
  case value => rw [hostRead_mapped hrst hname, respond_bus]
  case txbuf =>
    have hx := hoffset (x := x) (by omega)
    have hreg := hostRegAt_txbuf (a := BitVec.ofNat 12 x) (by omega) (by omega) (by omega)
    rwa [hx] at hreg
  case rxbuf =>
    have hx := hoffset h2
    have hreg := hostRegAt_rxbuf (a := BitVec.ofNat 12 x) (by omega) (by omega) (by omega)
    rwa [hx] at hreg

end Sys2Proof.Machine
end

section
/-! SUPPORT. Proofs about the wire engine (40_spi_register.md R146): its pins in time, one edge, a run of whole bytes,
and the block's transactions. -/

namespace Sys2Proof.Machine

open Sys2Proof.Claims

/-- The shift register drops its top bit and takes the sample of `miso` at the bottom. -/
theorem rise_shift (x : Byte) (miso : Bool) : (x.concat miso).setWidth 8 = x.extractLsb' 0 7 ++ BitVec.ofBool miso := by
  apply BitVec.eq_of_getLsbD_eq
  intro i hi
  obtain rfl | ⟨j, rfl⟩ : i = 0 ∨ ∃ j, i = j + 1 := by cases i <;> simp
  · simp only [BitVec.getLsbD_append]; simp
  · simp only [BitVec.getLsbD_append]
    simp [hi, show j < 7 by omega]

/-- After whole bytes the shift register holds the last byte sampled and both counters have counted them. -/
theorem clock_whole_bytes {out inn : List Byte} (last : Byte) (h : out.length = inn.length + 1) {w : Spi}
    (hw : w.bitCnt = 0#3) :
    let v := Spi.clock (wireBits out (inn ++ [last])) w
    v.csN = w.csN ∧ v.sck = false ∧ v.shift = last ∧ v.bitCnt = 0#3 ∧
      v.byteCnt = w.byteCnt + BitVec.ofNat 9 (inn.length + 1) := by
  have hlen : out.length = (inn ++ [last]).length := by simpa using h
  have hout : (out.zip (inn ++ [last])).map Prod.fst = out := List.map_fst_zip hlen.le
  have hinn : (out.zip (inn ++ [last])).map Prod.snd = inn ++ [last] := List.map_snd_zip hlen.ge
  have hcount : (out.zip (inn ++ [last])).length = inn.length + 1 := by simp [h]
  have hlast : (out.zip (inn ++ [last])).getLast?.map Prod.snd = some last := by
    rw [← List.getLast?_map, hinn, List.getLast?_concat]
  have hne : out.zip (inn ++ [last]) ≠ [] := List.ne_nil_of_length_eq_add_one hcount
  obtain ⟨hcs, hbit, hbyte, hshift, hsck⟩ := clock_bytes (out.zip (inn ++ [last])) w hw
  rw [hout, hinn] at hcs hbit hbyte hshift hsck
  rw [hcount] at hbyte
  rw [hlast] at hshift
  exact ⟨hcs, hsck hne, hshift, hbit, hbyte⟩

/-- Settles O55: the pins are `cycles_pins`, the bytes `clock_whole_bytes`, a transaction `Spi.afterTransaction`. -/
theorem wireEngineSamplesAndCounts : Obligations.WireEngineSamplesAndCounts := by
  refine ⟨fun h out inn w hlen hsck => ?pins, fun miso next w => ?edges, fun out inn last w hlen => ?bytes,
    fun a bytes s => ?write, fun a n b s => ?read⟩
  case pins =>
    rw [cycles_pins h _ (w := w.select (nextMosi (wireBits out inn))) rfl hsck rfl, wireBits_mosi hlen]
    rfl
  case edges =>
    refine ⟨by rw [Spi.rise, rise_shift], rfl, rfl, rfl, rfl, ?_⟩
    simp only [Spi.fall]
    split <;> simp
  case bytes =>
    obtain ⟨hcs, hsck, hshift, hbit, hbyte⟩ := clock_whole_bytes last hlen
      (w := w.select (nextMosi (wireBits out (inn ++ [last])))) rfl
    exact ⟨hcs, hsck, hshift, hbit, hbyte.trans (BitVec.zero_add _)⟩
  case write =>
    refine ⟨wiresIdle_spiWrite a bytes s, ?_, ?_⟩ <;> rw [spiWrite_spi] <;> rfl
  case read =>
    refine ⟨wiresIdle_spiRead a n s, ?_, fun hlast => ?_⟩ <;> rw [spiRead_spi]
    · rfl
    · simp [Spi.afterTransaction, List.getLastD_eq_getLast?, hlast]

end Sys2Proof.Machine
end

section
/-! SUPPORT. Proofs about the transactions of a step (20_memory.md R78, R89): what a submitted word runs, and that the
events of every step are those of labels, which meet the burst rule of R147. -/

namespace Sys2Proof.Machine

open Sys2Proof.Claims

/-! ## The command a word runs (R89, R240) -/

/-- A submitted word that decodes runs as the command it decodes to. -/
theorem stepCommand_of_decode {w : Word} {i : Instr} {tail : List Byte} (h : decode (fetchBytes w) = .ok (i, tail))
    (s : State) : stepCommand w s = exec i s := by
  simp only [stepCommand, h]

theorem step_of_command {s : State} {w : Word} {rest : List Input} (h : s.inputs = .command w :: rest) :
    step s = stepCommand w { s with inputs := rest } := by
  simp only [step, h]

/-- What the decoder reads from a table word it reads from the word's bytes as they are fetched. -/
theorem decode_of_decodeTableWord {nbits w : Nat} {i : Instr} (h : decodeTableWord nbits w = some i) :
    ∃ tail, decode (fetchBytes (tableWord nbits w)) = .ok (i, tail) := by
  unfold decodeTableWord at h
  split at h
  case h_1 j tail hdec =>
    cases h
    exact ⟨tail, hdec⟩
  case h_2 => cases h

/-- Settles O7: the scheduled word is taken off and decoded; `withFetchWord` schedules the table word on an idle block. -/
theorem stepRunsTheDecodedCommand : Obligations.StepRunsTheDecodedCommand := by
  refine ⟨fun s w i tail rest hin hdec => ?scheduled, fun s nbits w i htable => ?placed⟩
  case scheduled => rw [step_of_command hin, stepCommand_of_decode hdec]
  case placed =>
    obtain ⟨tail, hdec⟩ := decode_of_decodeTableWord htable
    have hin : (s.withFetchWord nbits w).inputs = .command (tableWord nbits w) :: s.inputs := rfl
    rw [step_of_command hin, stepCommand_of_decode hdec]
    rfl

/-! ## A step shows only the events of labels (R6, R78, R147) -/

/-- `t` comes from `s` by one label of a command, or by a change that shows nothing: the configuration and the trace stay. -/
inductive LabelOrQuiet (s t : State) : Prop where
  | label {o : Opcode} {n : Nat} (h : stepsOf o n s = some t)
  | quiet (par : t.par = s.par) (trace : t.trace = s.trace)

/-- `t` comes from `s` by labels of commands and changes that show nothing. -/
def ByLabels : State → State → Prop := Relation.ReflTransGen LabelOrQuiet

namespace ByLabels

theorem refl (s : State) : ByLabels s s := Relation.ReflTransGen.refl

theorem trans {s t u : State} (h : ByLabels s t) (h' : ByLabels t u) : ByLabels s u := Relation.ReflTransGen.trans h h'

theorem quiet {s t : State} (hpar : t.par = s.par) (htrace : t.trace = s.trace) : ByLabels s t :=
  Relation.ReflTransGen.single (.quiet hpar htrace)

theorem label {o : Opcode} {n : Nat} {s t : State} (h : stepsOf o n s = some t) : ByLabels s t :=
  Relation.ReflTransGen.single (.label h)

/-- What a host access may change is not the observation (R89). -/
theorem of_hostLeaves {s t : State} (h : HostLeaves s t) : ByLabels s t :=
  .quiet (congrArg (·.par) h) (congrArg (·.trace) h)

theorem seqMove {s t : State} (h : Machine.seqMove s = .next t) : ByLabels s t := by
  obtain rfl | ⟨o, n, -, hlabel⟩ := seqMove_cases h
  · exact .refl _
  · exact .label hlabel

theorem beginCommand (w : Word) (i : Instr) (s : State) : ByLabels s (Machine.beginCommand w i s) := by
  obtain ⟨-, -, h⟩ | ⟨-, h⟩ := beginCommand_cases w i s <;> rw [h] <;> exact .quiet rfl rfl

/-- The guards of a submission add no event. -/
theorem whenReady {s : State} {act : State → State} (hact : ByLabels s (act s)) :
    ByLabels s (Machine.whenReady s act) :=
  whenReady_of (.refl s) (.quiet rfl rfl) fun _ => hact

theorem writeCmd (w : Word) (s : State) : ByLabels s (Machine.writeCmd w s) :=
  .whenReady (.of_hostLeaves (submit_leaves w s))

/-- A whole command is its submission and its labels (R240, R10). -/
theorem exec {i : Instr} {s t : State} (h : Machine.exec i s = .next t) : ByLabels s t := by
  obtain ⟨fuel, hexec⟩ := exec_eq i s
  rw [hexec] at h
  cases h
  refine .whenReady ?_
  exact runTable_induct (P := ByLabels s) (fun _ _ _ hs hlabel => hs.trans (.label hlabel)) fuel
    (.beginCommand (encode i) i s)

theorem stepCommand {w : Word} {s t : State} (h : Machine.stepCommand w s = .next t) : ByLabels s t := by
  unfold Machine.stepCommand at h
  split at h
  · exact .exec h
  · cases h; exact .whenReady (.quiet rfl rfl)
  · cases h; exact .writeCmd w s

theorem hostAccess (acc : HostAccess) (s : State) : ByLabels s (Machine.hostAccess acc s) :=
  .of_hostLeaves (hostAccess_leaves acc s)

theorem cycleHost (acc : Option HostAccess) (s : State) : ByLabels s (Machine.cycleHost acc s) := by
  cases acc with
  | none => exact .refl s
  | some acc => exact .hostAccess acc s

theorem cycleSeq {ends : Bool} {s t : State} (h : Machine.cycleSeq ends s = .next t) : ByLabels s t := by
  cases ends with
  | true => exact .seqMove h
  | false => cases h; exact .refl s

theorem cycleDio (level : Bool) (s : State) : ByLabels s (Machine.cycleDio level s) := by
  unfold Machine.cycleDio
  split <;> exact .quiet rfl rfl

theorem cycleMove {acc : Option HostAccess} {ends level : Bool} {s t : State}
    (h : Machine.cycleMove acc ends level s = .next t) : ByLabels s t := by
  obtain ⟨u, hseq, rfl⟩ := cycleMove_cases h
  exact ((cycleHost acc s).trans (cycleSeq hseq)).trans (cycleDio level u)

theorem sequencerMove {s t : State} (h : Machine.sequencerMove s = .next t) : ByLabels s t := by
  unfold Machine.sequencerMove at h
  split at h
  · cases h; exact .refl s
  · exact .seqMove h

theorem timeBaseMove {s t : State} (h : Machine.timeBaseMove s = .next t) : ByLabels s t := by
  unfold Machine.timeBaseMove at h
  split at h
  · exact .seqMove h
  · cases h; exact .refl s

theorem dio0RiseMove (s : State) : ByLabels s (Machine.dio0RiseMove s) := by
  unfold Machine.dio0RiseMove
  split <;> exact .quiet rfl rfl

theorem setRst (level : Bool) (s : State) : ByLabels s (Machine.setRst level s) := by
  cases level <;> exact .quiet rfl rfl

/-- WAITDONE only reads STATUS: the block's moves it schedules are steps of their own. -/
theorem waitDoneMove (s : State) : ByLabels s (Machine.waitDoneMove s) := by
  have hread := hostAccess (.read statusAddr) s
  unfold Machine.waitDoneMove
  split
  · exact hread.trans (.quiet rfl rfl)
  · exact hread

theorem readInto (r : Nat) (a : HostAddr) (s : State) : ByLabels s (Machine.readInto r a s) :=
  (hostAccess (.read a) s).trans (.quiet rfl rfl)

theorem agentMove {m : Input} {s t : State} (h : Machine.agentMove m s = .next t) : ByLabels s t := by
  cases m with
  | command w => cases h; exact .writeCmd w s
  | host acc => cases h; exact .hostAccess acc s
  | sequencer => exact .sequencerMove h
  | timeBase => exact .timeBaseMove h
  | dio0Rise => cases h; exact .dio0RiseMove s
  | cycle acc ends level => exact .cycleMove h
  | rst level => cases h; exact .setRst level s
  | deliver bytes addr rssi snr => cases h; exact .quiet rfl rfl
  | waitDone => cases h; exact .waitDoneMove s
  | readInto r a => cases h; exact .readInto r a s

theorem withInputs (s : State) (rest : List Input) : ByLabels s { s with inputs := rest } := .quiet rfl rfl

theorem step {s t : State} (h : Machine.step s = .next t) : ByLabels s t := by
  unfold Machine.step at h
  split at h
  · exact .seqMove h
  · exact (withInputs s _).trans (.stepCommand h)
  · exact (withInputs s _).trans (.agentMove h)

end ByLabels

/-- One label performs the one event of `stepsOf_event`, a quiet change none; so whatever labels ran, the events they added
meet the burst rule. -/
theorem ByLabels.burstRule {s t : State} (h : ByLabels s t) :
    t.par = s.par ∧ ∃ es, t.trace = s.trace ++ es ∧ ∀ e ∈ es, burstToFifo s.par e ∧ burstBounded e := by
  induction h with
  | refl => exact ⟨rfl, [], (List.append_nil _).symm, nofun⟩
  | tail _ hlast ih =>
    obtain ⟨hpar, es, htrace, hrule⟩ := ih
    cases hlast with
    | quiet hpar' htrace' => exact ⟨hpar'.trans hpar, es, htrace'.trans htrace, hrule⟩
    | label hlabel =>
      obtain ⟨e, htrace', hfifo, hbound, -⟩ := stepsOf_event hlabel
      obtain ⟨hframe, -⟩ := stepsOf_frame hlabel
      refine ⟨hframe.par.trans hpar, es ++ [e], by rw [htrace', htrace, List.append_assoc], ?_⟩
      exact List.forall_mem_append.mpr ⟨hrule, List.forall_mem_singleton.mpr ⟨hpar ▸ hfifo, hbound⟩⟩

/-- Settles O51: the only events of a step are those of labels, and each label's event meets the rule. -/
theorem burstsGoToTheFifo : Obligations.BurstsGoToTheFifo := by
  intro s t h
  obtain ⟨-, hevents⟩ := (ByLabels.step h).burstRule
  exact hevents

end Sys2Proof.Machine
end

section
/-! SUPPORT. Proofs about the waveform of a transaction (40_spi_register.md R146): its length, its levels, and what the
other side samples. -/

namespace Sys2Proof.Machine

open Sys2Proof.Claims

/-! ## The half period (R146) -/

/-- `halfPeriod` rounds the quotient of the clock by twice the bit rate up. -/
theorem halfPeriod_bounds {p : Params} (h : 0 < p.spiHz) : 1000 * p.clkKHz ≤ halfPeriod p * (2 * p.spiHz) ∧
    halfPeriod p * (2 * p.spiHz) < 1000 * p.clkKHz + 2 * p.spiHz := by
  have hle := Nat.div_mul_le_self (1000 * p.clkKHz + 2 * p.spiHz - 1) (2 * p.spiHz)
  have hlt := Nat.lt_div_mul_add (a := 1000 * p.clkKHz + 2 * p.spiHz - 1) (show 0 < 2 * p.spiHz by omega)
  rw [halfPeriod]
  omega

/-! ## The waveform, bit by bit -/

@[simp] theorem bitWave_length (h : Nat) (b : Bool) : (bitWave h b).length = 2 * h := by
  simp [bitWave, two_mul]

theorem bitWave_selected {h : Nat} {b : Bool} {q : Pins} (hq : q ∈ bitWave h b) : q.csN = false := by
  obtain hlow | hhigh := List.mem_append.mp hq
  · rw [List.eq_of_mem_replicate hlow]
  · rw [List.eq_of_mem_replicate hhigh]

theorem selectedWave_length (h : Nat) (bytes : List Byte) :
    (selectedWave h bytes).length = (16 * bytes.length + 1) * h := by
  have hbits : ((bytes.flatMap bitsMsbFirst).flatMap (bitWave h)).length = bytes.length * 8 * (2 * h) := by
    simp [List.length_flatMap]
  rw [selectedWave, List.length_append, hbits, List.length_replicate]
  ring

theorem selectedWave_selected {h : Nat} {bytes : List Byte} {q : Pins} (hq : q ∈ selectedWave h bytes) :
    q.csN = false := by
  obtain hbits | htail := List.mem_append.mp hq
  · obtain ⟨b, -, hb⟩ := List.mem_flatMap.mp hbits
    exact bitWave_selected hb
  · rw [List.eq_of_mem_replicate htail]

/-! ## What the other side samples (R146) -/

/-- Cycles with `sck` low hold no sample. -/
theorem sampledBits_low (h : Nat) {q : Pins} (hq : q.sck = false) (prev : Bool) (qs : List Pins) :
    sampledBits prev (List.replicate h q ++ qs) = sampledBits (if h = 0 then prev else false) qs := by
  induction h generalizing prev with
  | zero => rfl
  | succ h ih => simp [List.replicate_succ, sampledBits, hq, ih]

/-- While `sck` stays high nothing more is sampled. -/
theorem sampledBits_high (h : Nat) {q : Pins} (hq : q.sck = true) (qs : List Pins) :
    sampledBits true (List.replicate h q ++ qs) = sampledBits true qs := by
  induction h with
  | zero => rfl
  | succ h ih => simpa [List.replicate_succ, sampledBits, hq] using ih

/-- A bit on the wire is sampled once, at its rising edge. -/
theorem sampledBits_bitWave {h : Nat} (hpos : 0 < h) (prev b : Bool) (qs : List Pins) :
    sampledBits prev (bitWave h b ++ qs) = b :: sampledBits true qs := by
  obtain ⟨h, rfl⟩ := Nat.exists_eq_succ_of_ne_zero hpos.ne'
  rw [bitWave, List.append_assoc, sampledBits_low _ rfl, if_neg h.succ_ne_zero, List.replicate_succ, List.cons_append]
  exact congrArg (b :: ·) (sampledBits_high h rfl qs)

/-- The bits on the wire are sampled in order, whatever follows them. -/
theorem sampledBits_bits {h : Nat} (hpos : 0 < h) (bits : List Bool) (prev : Bool) (qs : List Pins) :
    ∃ last, sampledBits prev (bits.flatMap (bitWave h) ++ qs) = bits ++ sampledBits last qs := by
  induction bits generalizing prev with
  | nil => exact ⟨prev, rfl⟩
  | cons b bits ih =>
    obtain ⟨last, hlast⟩ := ih true
    exact ⟨last, by rw [List.flatMap_cons, List.append_assoc, sampledBits_bitWave hpos, hlast, List.cons_append]⟩

theorem sampledBits_waveform {h : Nat} (hpos : 0 < h) (bytes : List Byte) :
    sampledBits false (waveform h bytes) = bytes.flatMap bitsMsbFirst := by
  have hidle (last : Bool) : sampledBits last (List.replicate (2 * h) ⟨true, false, false⟩) = [] := by
    rw [← List.append_nil (List.replicate _ _), sampledBits_low _ rfl, sampledBits]
  rw [waveform, selectedWave, List.append_assoc]
  obtain ⟨last, hlast⟩ := sampledBits_bits hpos (bytes.flatMap bitsMsbFirst) false
    (List.replicate h ⟨false, false, Config.mosiTail⟩ ++ List.replicate (2 * h) ⟨true, false, false⟩)
  rw [hlast, sampledBits_low _ rfl, hidle, List.append_nil]

/-- Settles O53: the bytes and the half period by their definitions, the waveform bit by bit. -/
theorem waveformCarriesTheBytes : Obligations.WaveformCarriesTheBytes := by
  refine ⟨fun p a bytes => ⟨rfl, rfl⟩, fun p a n d => ⟨rfl, rfl⟩, fun p hspi => halfPeriod_bounds hspi,
    fun h bytes hpos => ⟨selectedWave_length h bytes, fun q hq => selectedWave_selected hq, rfl, ?samples⟩⟩
  exact sampledBits_waveform hpos bytes

end Sys2Proof.Machine
end

section
/-! SUPPORT. Proofs about the reference chip, a test harness (20_memory.md R81 to R84): its registers, and its interrupt
flags (R79, R83). -/

namespace Sys2Proof.Machine

open Sys2Proof.Claims

namespace RefChip

@[simp] theorem reg_setReg_same (c : RefChip) (a : ChipAddr) (v : Byte) : (c.setReg a v).reg a = v :=
  Vector.getElem_set_self _

theorem reg_setReg_other (c : RefChip) {a b : ChipAddr} (h : b ≠ a) (v : Byte) : (c.setReg a v).reg b = c.reg b :=
  Vector.getElem_set_ne a.isLt b.isLt fun hab => h (BitVec.eq_of_toNat_eq hab.symm)

theorem read_one (p : Params) (a : ChipAddr) (c : RefChip) :
    c.read p a 1 = ([(c.readOne p a).1], (c.readOne p a).2) := rfl

theorem write_one (p : Params) (a : ChipAddr) (v : Byte) (c : RefChip) : c.write p a [v] = c.writeOne p a v := rfl

/-- A read of the interrupt flags is seen by a transmission in progress alone (R84 (a)). -/
theorem flagsWereRead_of_not_pending (p : Params) {c : RefChip} (h : c.pending = none) : c.flagsWereRead p = c := by
  simp only [flagsWereRead, h]

theorem readOne_irqFlags {p : Params} (hfifo : p.regs.irqFlags ≠ p.regs.fifo) (c : RefChip) :
    c.readOne p p.regs.irqFlags = (c.reg p.regs.irqFlags, c.flagsWereRead p) := by
  rw [readOne, if_neg hfifo, if_pos rfl]

/-- The interrupt flags are write-one-to-clear (R83). -/
theorem writeOne_irqFlags {p : Params} (hfifo : p.regs.irqFlags ≠ p.regs.fifo) (v : Byte) (c : RefChip) :
    c.writeOne p p.regs.irqFlags v = c.setReg p.regs.irqFlags (c.reg p.regs.irqFlags &&& ~~~v) := by
  rw [writeOne, if_neg hfifo, if_pos rfl]

end RefChip

/-- Settles O54: the flags' own cases of `readOne` and `writeOne`. -/
theorem referenceChipFlagsAreWriteOneToClear : Obligations.ReferenceChipFlagsAreWriteOneToClear := by
  intro p c v hfifo hpending
  have hwrite : c.write p p.regs.irqFlags [v] = c.setReg p.regs.irqFlags (c.reg p.regs.irqFlags &&& ~~~v) :=
    (RefChip.write_one p _ v c).trans (RefChip.writeOne_irqFlags hfifo v c)
  refine ⟨?read, ?flags, fun a ha => ?others⟩
  case read => rw [RefChip.read_one, RefChip.readOne_irqFlags hfifo, RefChip.flagsWereRead_of_not_pending p hpending]
  case flags => rw [hwrite, RefChip.reg_setReg_same]
  case others => rw [hwrite, RefChip.reg_setReg_other c ha]

end Sys2Proof.Machine
end

section
/-! SUPPORT. Proofs about the encoding (30_encoding.md R110 to R115): the conditions under which a word is a command,
the word put together again from its fields, and the rows of the opcode table. -/

namespace Sys2Proof

open Sys2Proof.Claims

/-! ## The opcode map (R112) -/

/-- The numbers of `opcodeNumbers` are those of the twelve opcodes. -/
theorem mem_opcodeNumbers_iff {b : Byte} : b.toNat ∈ opcodeNumbers ↔ ∃ o : Opcode, o.toByte = b := by
  have hnumbers : opcodeNumbers = [Opcode.regw, .regr, .fifow, .fifor, .stby, .txm, .rxm, .send, .avail, .recv, .init,
      .config].map fun o => o.toByte.toNat := rfl
  rw [hnumbers, List.mem_map]
  constructor
  · rintro ⟨o, -, ho⟩
    exact ⟨o, BitVec.eq_of_toNat_eq ho⟩
  · rintro ⟨o, rfl⟩
    exact ⟨o, by cases o <;> decide, rfl⟩

theorem Opcode.ofByte_eq_none {b : Byte} (h : b.toNat ∉ opcodeNumbers) : Opcode.ofByte b = none := by
  cases ho : Opcode.ofByte b with
  | none => rfl
  | some o => exact absurd (mem_opcodeNumbers_iff.mpr ⟨o, Opcode.toByte_of_ofByte ho⟩) h

/-- The A column of R112 by number: REGW and REGR. -/
theorem Opcode.usesA_eq_false_iff (o : Opcode) : o.usesA = false ↔ o.toByte.toNat ∉ [0x01, 0x02] := by
  cases o <;> decide

/-- The B column of R112 by number: REGW, FIFOW and FIFOR. -/
theorem Opcode.usesB_eq_false_iff (o : Opcode) : o.usesB = false ↔ o.toByte.toNat ∉ [0x01, 0x03, 0x04] := by
  cases o <;> decide

/-! ## The fields of a word (R111) -/

theorem Word.fieldA_eq_zero_iff (w : Word) : Word.fieldA w = 0#8 ↔ w.extractLsb' 8 7 = 0#7 := by
  rw [Word.fieldA]
  bv_omega

theorem Word.fieldA_toNat_lt (w : Word) : (Word.fieldA w).toNat < 128 := by
  rw [Word.fieldA, BitVec.toNat_setWidth]
  have := (w.extractLsb' 8 7).isLt
  omega

/-- The reserved bits are zero when bits 31:24 and bit 15 are (R114). -/
theorem Word.reserved_eq_zero_iff (w : Word) :
    Word.reserved w = 0#32 ↔ w.extractLsb' 24 8 = 0#8 ∧ w.getLsbD 15 = false := by
  constructor
  · intro h
    constructor
    · have htop := congrArg (BitVec.extractLsb' 24 8) h
      rw [Word.reserved, BitVec.extractLsb'_and] at htop
      exact BitVec.and_allOnes.symm.trans htop
    · simpa [Word.reserved] using congrArg (BitVec.getLsbD · 15) h
  · rintro ⟨htop, h15⟩
    have hbits : ∀ j < 8, w.getLsbD (24 + j) = false := fun j hj => by
      simpa [hj] using congrArg (BitVec.getLsbD · j) htop
    apply BitVec.eq_of_getLsbD_eq
    intro i hi
    rw [Word.reserved, BitVec.getLsbD_and]
    obtain hlow | hhigh : i < 24 ∨ 24 ≤ i := Nat.lt_or_ge i 24
    · rw [BitVec.getLsbD_eq_getElem (by decide)] at h15
      interval_cases i <;> simp [h15]
    · rw [show i = 24 + (i - 24) by omega, hbits _ (by omega)]
      simp

/-- A word whose reserved bits are zero is put together from its fields. -/
theorem encodeFields_fields {w : Word} {o : Opcode} (ho : o.toByte = Word.opc w) (h : Word.reserved w = 0#32) :
    encodeFields o (Word.fieldA w) (Word.fieldB w) = w := by
  obtain ⟨htop, h15⟩ := (Word.reserved_eq_zero_iff w).mp h
  have hbit : w.extractLsb' 15 1 = 0#1 := by
    ext j hj
    obtain rfl : j = 0 := by omega
    simpa using h15
  have hA : (Word.fieldA w).setWidth 7 = w.extractLsb' 8 7 := by
    rw [Word.fieldA]
    simp
  rw [encodeFields, ho, hA, ← htop, ← hbit, Word.fieldB, Word.opc]
  simp (disch := decide) only [BitVec.extractLsb'_append_extractLsb'_eq_extractLsb']
  exact BitVec.extractLsb'_eq_self

/-! ## Decoding (R115) -/

/-- The word passes the tests of R115 that follow the opcode's: the reserved bits are zero and so are the fields `o` does
not use. -/
structure Word.Fits (o : Opcode) (w : Word) : Prop where
  reserved : Word.reserved w = 0#32
  fieldA : o.usesA = false → Word.fieldA w = 0#8
  fieldB : o.usesB = false → Word.fieldB w = 0#8

theorem decodeWord_illegalOpcode {w : Word} (h : (Word.opc w).toNat ∉ opcodeNumbers) :
    decodeWord w = .error .illegalOpcode := by
  simp only [decodeWord, Opcode.ofByte_eq_none h]

/-- A word that fits its opcode is the opcode's command on the word's fields. -/
theorem decodeWord_of_fits {o : Opcode} {w : Word} (ho : o.toByte = Word.opc w) (h : Word.Fits o w) :
    decodeWord w = .ok (o.instr (Word.fieldA w) (Word.fieldB w)) := by
  obtain ⟨hres, hA, hB⟩ := h
  rw [← encodeFields_fields ho hres, Word.fieldA_encodeFields, Word.fieldB_encodeFields]
  have hlow := setWidth_7_8_of_lt (Word.fieldA_toNat_lt w)
  rw [decodeWord_encodeFields hlow hA hB, hlow]

/-- A word that does not fit its opcode has one error, whichever of the tests it fails. -/
theorem decodeWord_of_not_fits {o : Opcode} {w : Word} (ho : o.toByte = Word.opc w) (h : ¬ Word.Fits o w) :
    decodeWord w = .error .reservedField := by
  simp only [decodeWord, ← ho, Opcode.ofByte_toByte]
  split
  · rfl
  · next hres =>
    split
    · rfl
    · next hA =>
      split
      · rfl
      · next hB => exact absurd ⟨by simpa using hres, by simpa using hA, by simpa using hB⟩ h

/-- A decoded word is of the opcode of its command, fits it, and holds the command's operands. -/
theorem decodeWord_ok {w : Word} {i : Instr} (h : decodeWord w = .ok i) :
    i.opcode.toByte = Word.opc w ∧ Word.Fits i.opcode w ∧ i = i.opcode.instr (Word.fieldA w) (Word.fieldB w) := by
  by_cases hmem : (Word.opc w).toNat ∈ opcodeNumbers
  · obtain ⟨o, ho⟩ := mem_opcodeNumbers_iff.mp hmem
    by_cases hfits : Word.Fits o w
    · rw [decodeWord_of_fits ho hfits] at h
      cases h
      rw [Opcode.opcode_instr]
      exact ⟨ho, hfits, rfl⟩
    · rw [decodeWord_of_not_fits ho hfits] at h
      cases h
  · rw [decodeWord_illegalOpcode hmem] at h
    cases h

/-! ## The round trips (R110, R111, R114) -/

/-- Settles O1: the four bytes are the word of the command, which decodes to it. -/
theorem decodeEncodeRoundTrip : Obligations.DecodeEncodeRoundTrip := by
  intro i rest hwf
  rw [encodeBytes, decode_wordBytes, decodeWord_encode hwf]

/-- The encoder writes the operands of an opcode's command to the fields the opcode uses. -/
theorem encode_instr {o : Opcode} {a b : Byte} (hA : o.usesA = false → a = 0#8) (hB : o.usesB = false → b = 0#8) :
    encode (o.instr a b) = encodeFields o a b := by
  cases o with
  | regw => rfl
  | regr => rw [hB rfl]; rfl
  | fifow | fifor => rw [hA rfl]; rfl
  | _ => rw [hA rfl, hB rfl]; rfl

theorem wf_instr {a : Byte} (ha : a.toNat < 128) (o : Opcode) (b : Byte) : (o.instr a b).wf = true := by
  cases o with
  | regw | regr => exact decide_eq_true ha
  | _ => rfl

/-- Settles O2: a decoded word fits its opcode, so it is put together from the fields the encoder writes. -/
theorem encodeDecodeRoundTrip : Obligations.EncodeDecodeRoundTrip := by
  intro w i h
  obtain ⟨ho, hfits, hi⟩ := decodeWord_ok h
  rw [hi]
  refine ⟨?_, wf_instr (Word.fieldA_toNat_lt w) _ _⟩
  rw [encode_instr hfits.fieldA hfits.fieldB, encodeFields_fields ho hfits.reserved]

/-- Settles O3: each test that fails is a condition of `Word.Fits` that does not hold. -/
theorem decodingFollowsTheOrderedTests : Obligations.DecodingFollowsTheOrderedTests := by
  intro w
  refine ⟨decodeWord_illegalOpcode, fun hmem => ?_⟩
  obtain ⟨o, ho⟩ := mem_opcodeNumbers_iff.mp hmem
  rw [← ho, ← Opcode.usesA_eq_false_iff, ← Opcode.usesB_eq_false_iff]
  refine ⟨fun hres => ?reserved, fun huse hA => ?fieldA, fun huse hB => ?fieldB, fun htop h15 hA hB => ?command⟩
  case reserved =>
    refine decodeWord_of_not_fits ho fun hfits => ?_
    obtain ⟨htop, h15⟩ := (Word.reserved_eq_zero_iff w).mp hfits.reserved
    exact hres.elim (· htop) fun h => absurd (h15.symm.trans h) Bool.false_ne_true
  case fieldA =>
    exact decodeWord_of_not_fits ho fun hfits => hA ((Word.fieldA_eq_zero_iff w).mp (hfits.fieldA huse))
  case fieldB => exact decodeWord_of_not_fits ho fun hfits => hB (hfits.fieldB huse)
  case command =>
    exact ⟨o, rfl, decodeWord_of_fits ho ⟨(Word.reserved_eq_zero_iff w).mpr ⟨htop, h15⟩,
      fun huse => (Word.fieldA_eq_zero_iff w).mpr (hA huse), hB⟩⟩

/-! ## The opcode table (R114) -/

/-- The match column holds the opcode alone. -/
theorem Opcode.tableRow_match (o : Opcode) :
    Word.opc o.tableRow.1 = o.toByte ∧ Word.reserved o.tableRow.1 = 0#32 ∧ Word.fieldA o.tableRow.1 = 0#8 ∧
      Word.fieldB o.tableRow.1 = 0#8 := by
  cases o <;> decide

/-- The mask column holds the opcode, the reserved bits and the fields the opcode does not use. -/
theorem Opcode.tableRow_mask (o : Opcode) :
    o.tableRow.2.extractLsb' 0 8 = BitVec.allOnes 8 ∧ o.tableRow.2 &&& 0xFF008000#32 = 0xFF008000#32 ∧
      (o.usesA = false → o.tableRow.2.extractLsb' 8 7 = BitVec.allOnes 7) ∧
      (o.usesB = false → o.tableRow.2.extractLsb' 16 8 = BitVec.allOnes 8) := by
  cases o <;> decide

/-- The fields a mask covers are those of the masked word. -/
theorem extractLsb'_and_of_allOnes {w m : Word} {start len : Nat} (h : m.extractLsb' start len = BitVec.allOnes len) :
    (w &&& m).extractLsb' start len = w.extractLsb' start len := by
  rw [BitVec.extractLsb'_and, h, BitVec.and_allOnes]

/-- A word of a row is of the row's opcode and fits it. -/
theorem Opcode.fits_of_rowMatches {o : Opcode} {w : Word} (h : o.rowMatches w = true) :
    o.toByte = Word.opc w ∧ Word.Fits o w := by
  have hrow : w &&& o.tableRow.2 = o.tableRow.1 := of_decide_eq_true h
  obtain ⟨hopc, hres, hA, hB⟩ := o.tableRow_match
  obtain ⟨mopc, mres, mA, mB⟩ := o.tableRow_mask
  rw [← hrow] at hopc hres hA hB
  refine ⟨?opc, ?reserved, fun huse => ?fieldA, fun huse => ?fieldB⟩
  case opc => rw [← hopc, Word.opc, extractLsb'_and_of_allOnes mopc, Word.opc]
  case reserved => rwa [Word.reserved, BitVec.and_assoc, mres] at hres
  case fieldA => rwa [Word.fieldA, extractLsb'_and_of_allOnes (mA huse)] at hA
  case fieldB => rwa [Word.fieldB, extractLsb'_and_of_allOnes (mB huse)] at hB

/-- The word of a command is of its command's row. -/
theorem rowMatches_encode (i : Instr) : i.opcode.rowMatches (encode i) = true := by
  cases i with
  | regw a v => exact (Laws.TableRow.regw a v).1
  | regr a => exact (Laws.TableRow.regr a).1
  | fifow n => exact (Laws.TableRow.fifow n).1
  | fifor n => exact (Laws.TableRow.fifor n).1
  | _ => rfl

theorem rowMatches_iff_decodes (o : Opcode) (w : Word) :
    o.rowMatches w = true ↔ ∃ i, decodeWord w = .ok i ∧ i.opcode = o := by
  constructor
  · intro h
    obtain ⟨ho, hfits⟩ := Opcode.fits_of_rowMatches h
    exact ⟨_, decodeWord_of_fits ho hfits, Opcode.opcode_instr o _ _⟩
  · rintro ⟨i, h, rfl⟩
    rw [← (encodeDecodeRoundTrip w i h).1]
    exact rowMatches_encode i

/-- Settles O4: a word of a row fits the row's opcode; the word of two rows would decode to two commands. -/
theorem tableRowsSelectTheDecodedWords : Obligations.TableRowsSelectTheDecodedWords := by
  refine ⟨rowMatches_iff_decodes, fun o o' w h h' => ?_⟩
  obtain ⟨ho, -⟩ := Opcode.fits_of_rowMatches h
  obtain ⟨ho', -⟩ := Opcode.fits_of_rowMatches h'
  rw [← ho'] at ho
  simpa using congrArg Opcode.ofByte ho

end Sys2Proof
end

section
/-! SUPPORT. Proofs about host programs (30_encoding.md R117 to R119, R127): the command words of the examples, what the
lines expand to, WAITDONE, and the bytes LDTX stores. -/

namespace Sys2Proof.Machine

open Sys2Proof.Claims

/-! ## Example words and pseudo-commands (R119, R127) -/

/-- Settles O5: an example word is the encoding of its command; the address bytes are `addrByte` at the defaults. -/
theorem exampleWordsDecode : Obligations.ExampleWordsDecode := by
  exact ⟨decodeWord_encode (i := .regw 0x0D#8 0x00#8) rfl, rfl,
    decodeWord_encode (i := .regw 0x12#8 0xFF#8) rfl, rfl,
    decodeWord_encode (i := .regw 0x40#8 0x40#8) rfl, rfl,
    decodeWord_encode (i := .regr 0x42#8) rfl,
    decodeWord_encode (i := .fifow 12#8) rfl,
    decodeWord_encode (i := .fifor 255#8) rfl,
    decodeWord_encode (i := .stby) rfl,
    decodeWord_encode (i := .txm) rfl,
    decodeWord_encode (i := .rxm) rfl,
    decodeWord_encode (i := .send) rfl,
    decodeWord_encode (i := .avail) rfl,
    decodeWord_encode (i := .recv) rfl,
    decodeWord_encode (i := .init) rfl,
    decodeWord_encode (i := .config) rfl,
    by decide, by decide, by decide,
    rfl, fun _ => rfl, rfl, fun _ => rfl, fun _ _ => rfl⟩

/-- Settles O6: each line assembles to the REGW of its row. -/
theorem pseudoCommandsAreRegisterWrites : Obligations.PseudoCommandsAreRegisterWrites :=
  fun _ _ _ => ⟨rfl, rfl, rfl, rfl, rfl, rfl, rfl⟩

/-! ## WAITDONE (R118) -/

theorem busy_eq_true_iff (s : State) : busy s = true ↔ s.seq ≠ .idle := by
  unfold busy
  split <;> simp_all

/-- Out of reset a read of STATUS answers the STATUS word. -/
theorem hostRead_status {s : State} (hrst : s.rstN = true) : hostRead statusAddr s = respond (statusWord s) false s :=
  hostRead_named (r := .status) hrst (by decide)

/-- The schedule has no part in a read of STATUS. -/
theorem hostRead_status_withInputs {s : State} (hrst : s.rstN = true) (inputs : List Input) :
    { hostRead statusAddr s with inputs := inputs } = hostRead statusAddr { s with inputs := inputs } := by
  rw [hostRead_status hrst, hostRead_status (s := { s with inputs := inputs }) hrst]
  rfl

theorem waitDoneMove_idle {s : State} (hrst : s.rstN = true) (hidle : s.seq = .idle) :
    waitDoneMove s = hostRead statusAddr s := by
  have hbusy : busy s = false := by simp [busy, hidle]
  rw [waitDoneMove, if_neg]
  rw [hostRead_status hrst, respond_bus, (statusWord_bits s).1, hbusy]
  exact Bool.false_ne_true

theorem waitDoneMove_busy {s : State} (hrst : s.rstN = true) (hrun : s.seq ≠ .idle) :
    waitDoneMove s = hostRead statusAddr
      { s with inputs := (if waiting s then .timeBase else .sequencer) :: .waitDone :: s.inputs } := by
  rw [waitDoneMove, if_pos]
  · exact hostRead_status_withInputs hrst _
  · rw [hostRead_status hrst, respond_bus, (statusWord_bits s).1, busy_eq_true_iff]
    exact hrun

theorem running_of_inWait {s : State} (h : InWait s) : s.seq ≠ .idle := by
  obtain h | h | h := h <;> rw [h] <;> exact nofun

theorem waitDoneMove_inWait {s : State} (hrst : s.rstN = true) (h : InWait s) :
    waitDoneMove s = hostRead statusAddr { s with inputs := .timeBase :: .waitDone :: s.inputs } := by
  rw [waitDoneMove_busy hrst (running_of_inWait h), if_pos ((waiting_iff s).mpr h)]

theorem waitDoneMove_running {s : State} (hrst : s.rstN = true) (hrun : s.seq ≠ .idle) (h : ¬ InWait s) :
    waitDoneMove s = hostRead statusAddr { s with inputs := .sequencer :: .waitDone :: s.inputs } := by
  rw [waitDoneMove_busy hrst hrun, if_neg (mt (waiting_iff s).mp h)]

/-- Settles O57: the lines are looked up in `HostLine.accesses`, WAITDONE by BUSY and the waits. -/
theorem hostDirectivesExpand : Obligations.HostDirectivesExpand := by
  refine ⟨fun p i n f m v r name => ⟨rfl, rfl, rfl, rfl, rfl, rfl, rfl⟩, fun s rest hrst h => ?_⟩
  have hstep : step s = .next (waitDoneMove { s with inputs := rest }) := step_of_agent h (by simp)
  refine ⟨fun hidle => ?idle, fun hwait => ?wait, fun hrun hwait => ?running⟩
  case idle => exact hstep.trans (congrArg _ (waitDoneMove_idle hrst hidle))
  case wait => exact hstep.trans (congrArg _ (waitDoneMove_inWait hrst hwait))
  case running => exact hstep.trans (congrArg _ (waitDoneMove_running hrst hrun hwait))

/-! ## LDTX (R118) -/

/-- Byte `k` of a group is byte `k` of its list, or the padding. -/
theorem extractLsb'_groupWord (l : List Byte) {k : Nat} (hk : k < 4) :
    (groupWord l).extractLsb' (8 * k) 8 = l.getD k 0#8 := by
  have hbytes : wordBytes (groupWord l) = [l.getD 0 0#8, l.getD 1 0#8, l.getD 2 0#8, l.getD 3 0#8] :=
    wordBytes_wordOfBytes _ _ _ _
  simp only [wordBytes, List.cons.injEq, and_true] at hbytes
  obtain ⟨h0, h1, h2, h3⟩ := hbytes
  interval_cases k
  · exact h0
  · exact h1
  · exact h2
  · exact h3

/-- A write of an aligned TXBUF word on a ready block stores its bytes and answers, and that is all (R40, R71). -/
theorem hostWrite_txbuf_ready {s : State} (hready : Ready s) {a : HostAddr} (h4 : a.toNat % 4 = 0)
    (h1 : 0x100 ≤ a.toNat) (h2 : a.toNat < 0x200) (v : Word) :
    hostWrite a v s = { s with mem := Memory.writeBytes s.mem a.toNat (wordBytes v), bus := ⟨0#32, false⟩ } := by
  rw [hostWrite_mapped v hready.1 (hostRegAt_txbuf h4 h1 h2), hostRegWrite, unlessBusy_idle hready.2]
  rfl

/-- `t` is `s` with the first `n` bytes of `bytes`, padded with 0x00, stored from buffer address `x` on; but for the
answer on the bus nothing else changed. -/
structure Stored (bytes : List Byte) (x n : Nat) (s t : State) : Prop where
  bytes : ∀ y, bufByte t y = if x ≤ y ∧ y < x + n then bytes.getD (y - x) 0#8 else bufByte s y
  frame : { t with mem := s.mem, bus := s.bus } = s

namespace Stored

variable {bytes : List Byte} {x n : Nat} {s t : State}

theorem none (bytes : List Byte) (x : Nat) (s : State) : Stored bytes x 0 s s :=
  ⟨fun y => by rw [if_neg (by omega)], rfl⟩

theorem ready (h : Stored bytes x n s t) (hready : Ready s) : Ready t :=
  ⟨(congrArg State.rstN h.frame).trans hready.1, (congrArg State.seq h.frame).trans hready.2⟩

/-- One more group of four bytes. -/
theorem write_group (h : Stored bytes x n s t) (hready : Ready s) (h4 : (x + n) % 4 = 0) (h1 : 0x100 ≤ x)
    (h2 : x + n < 0x200) :
    Stored bytes x (n + 4) s (hostWrite (BitVec.ofNat 12 (x + n)) (groupWord (bytes.drop n)) t) := by
  have ha : (BitVec.ofNat 12 (x + n)).toNat = x + n := by
    rw [BitVec.toNat_ofNat]
    omega
  rw [hostWrite_txbuf_ready (h.ready hready) (by omega) (by omega) (by omega), ha]
  obtain ⟨hin, hout⟩ := bufByte_writeWord t (x + n) (groupWord (bytes.drop n))
  refine ⟨fun y => ?_, h.frame⟩
  refine (bufByte_congr (s := { t with mem := _ }) rfl rfl y).trans ?_
  by_cases hgroup : x + n ≤ y ∧ y < x + n + 4
  · obtain ⟨k, rfl⟩ := Nat.exists_eq_add_of_le hgroup.1
    rw [hin k (by omega), extractLsb'_groupWord _ (by omega), if_pos (by omega), show x + n + k - x = n + k by omega]
    simp [List.getD_eq_getElem?_getD]
  · rw [hout y hgroup, h.bytes]
    exact if_congr (by omega) rfl rfl

end Stored

/-- The writes of the first `m` groups of LDTX. -/
def ldtxGroups (i : Nat) (bytes : List Byte) (m : Nat) : List HostAccess :=
  (List.range m).map fun j => .write (BitVec.ofNat 12 (txBufBase + i + 4 * j)) (groupWord (bytes.drop (4 * j)))

theorem ldtxGroups_succ (i : Nat) (bytes : List Byte) (m : Nat) :
    ldtxGroups i bytes (m + 1) = ldtxGroups i bytes m ++
      [.write (BitVec.ofNat 12 (txBufBase + i + 4 * m)) (groupWord (bytes.drop (4 * m)))] := by
  rw [ldtxGroups, List.range_succ, List.map_append]
  rfl

/-- LDTX writes as many groups as its bytes begin. -/
theorem accesses_ldtx (p : Params) (i : Nat) (bytes : List Byte) :
    (HostLine.ldtx i bytes).accesses p = ldtxGroups i bytes ((bytes.length + 3) / 4) := rfl

/-- The first `m` writes of LDTX store the first `m` groups. -/
theorem stored_ldtxGroups {s : State} (hready : Ready s) {i : Nat} (h4 : i % 4 = 0) (bytes : List Byte) (m : Nat)
    (hm : i + 4 * m ≤ 256) :
    Stored bytes (txBufBase + i) (4 * m) s ((ldtxGroups i bytes m).foldl (fun u acc => hostAccess acc u) s) := by
  have hbase : txBufBase = 0x100 := rfl
  induction m with
  | zero => exact Stored.none bytes _ s
  | succ m ih =>
    rw [ldtxGroups_succ, List.foldl_append]
    exact (ih (by omega)).write_group hready (by omega) (by omega) (by omega)

/-- Settles O58: the groups of LDTX end inside TXBUF, and one write after the other stores them. -/
theorem ldtxStoresItsBytes : Obligations.LdtxStoresItsBytes := by
  intro p i bytes s hready hwf t
  obtain ⟨h4, hlen⟩ : i % 4 = 0 ∧ i + bytes.length ≤ 256 := of_decide_eq_true hwf
  have hstored := stored_ldtxGroups hready h4 bytes ((bytes.length + 3) / 4) (by omega)
  rw [← accesses_ldtx p] at hstored
  obtain ⟨hbytes, hframe⟩ : Stored bytes (0x100 + i) (4 * ((bytes.length + 3) / 4)) s t := hstored
  refine ⟨fun k b hk => ?listed, fun k hle hlt => ?padding, fun x hx => ?others, hframe⟩
  case listed =>
    obtain ⟨hlt, -⟩ := List.getElem?_eq_some_iff.mp hk
    rw [hbytes, if_pos (by omega), Nat.add_sub_cancel_left, List.getD_eq_getElem?_getD, hk, Option.getD_some]
  case padding =>
    rw [hbytes, if_pos (by omega), Nat.add_sub_cancel_left, List.getD_eq_default _ _ hle]
  case others => rw [hbytes, if_neg hx]

end Sys2Proof.Machine
end

section
/-! SUPPORT. Proofs about the SPI register controller's commands (40_spi_register.md R144, R145, R148, R149): a command
whose label 0 ends it, the answers of a scripted chip, and what REGW, REGR, FIFOW and FIFOR do. -/

namespace Sys2Proof.Machine

open Sys2Proof.Claims

/-! ## A command that ends at its label 0 (R240, R243) -/

/-- The state a ready block stands in at label 0 of an accepted command. -/
def started (i : Instr) (s : State) : State := accept i.opcode (latchWord (encode i) s)

/-- A command whose label 0 does the work `u` and ends it completes in `u` with DONE set. -/
theorem exec_of_label_finish {i : Instr} {s u : State} {es : List Event} (hready : Ready s) (hi : i.opcode ≠ .config)
    (hlabel : stepsOf i.opcode 0 (started i s) = some (finish u)) (htrace : u.trace = s.trace ++ es)
    (hwires : WiresIdle u) :
    exec i s = .next (finish u) ∧ Ends s (finish u) { u.status with done := true } u.csr u.lat es := by
  obtain ⟨fuel, hfuel⟩ := Nat.exists_eq_add_of_lt (Nat.zero_lt_of_lt (labelsAfter_zero_lt i.opcode 0#16))
  have hframe := (stepsOf_frame hlabel).1
  constructor
  · rw [exec_eq_runTable i hready, beginCommand_accept hi, hfuel, Nat.zero_add, runTable_step rfl hlabel,
      runTable_idle _ _ (finish_seq u)]
  · exact ⟨rfl, rfl, rfl, rfl, htrace, hwires,
      ⟨hframe.sync, hframe.rstN, hframe.par, hframe.inputs, hframe.vars, hframe.epoch⟩⟩

/-! ## The answers of a scripted chip and the bytes of RXBUF (R41, R80) -/

/-- A scripted chip answers a read with its next bytes and keeps the rest. -/
theorem spiRead_scripted {bytes rest : List Byte} {s : State} (a : ChipAddr)
    (h : s.chip = .oracle (bytes ++ rest)) :
    spiAnswer a bytes.length s = bytes ∧ (spiRead a bytes.length s).chip = .oracle rest := by
  constructor
  · rw [spiAnswer, h, Chip.answer, oracleBytes_append]
  · rw [spiRead_chip, h, Chip.afterRead, List.drop_left]

theorem regRead_scripted {b : Byte} {rest : List Byte} {s : State} (a : ChipAddr) (h : s.chip = .oracle (b :: rest)) :
    regAnswer a s = b ∧ (regRead a s).chip = .oracle rest := by
  obtain ⟨hanswer, hchip⟩ := spiRead_scripted (bytes := [b]) a h
  rw [List.length_singleton, spiAnswer_one, List.singleton_inj] at hanswer
  exact ⟨hanswer, hchip⟩

/-- Every byte of a block stored in RXBUF reads back from its own place. -/
theorem bufByte_storeRx_stored {d : List Byte} {i : Nat} {b : Byte} (k : Nat) (h : d[i]? = some b) (s : State) :
    bufByte (storeRx k d s) (rxBufBase + k + i) = b := by
  obtain ⟨hi, -⟩ := List.getElem?_eq_some_iff.mp h
  rw [bufByte_storeRx, if_pos (by omega), Nat.add_sub_cancel_left, h, Option.getD_some]

/-! ## Label 0 of the four commands, with its operands -/

theorem regw_label (a v : Byte) (s : State) : stepsOf .regw 0 (started (.regw a v) s) =
    some (finish (regWrite (a.setWidth 7) v (started (.regw a v) s))) := by
  rw [stepsOf, regwSteps, opA_of_cmd rfl, opB_of_cmd rfl]

theorem regr_label (a : Byte) (s : State) : stepsOf .regr 0 (started (.regr a) s) =
    some (finish (setRdata (regAnswer (a.setWidth 7) (started (.regr a) s))
      (regRead (a.setWidth 7) (started (.regr a) s)))) := by
  rw [stepsOf, regrSteps, opA_of_cmd rfl]

theorem fifow_label (n : Byte) (s : State) : stepsOf .fifow 0 (started (.fifow n) s) =
    some (finish (spiWrite s.par.regs.fifo (txBytes s n.toNat) (started (.fifow n) s))) := by
  rw [stepsOf, fifowSteps, opB_of_cmd rfl]
  rfl

theorem fifor_label (n : Byte) (s : State) : stepsOf .fifor 0 (started (.fifor n) s) =
    some (finish (storeRx 0 (spiAnswer s.par.regs.fifo n.toNat (started (.fifor n) s))
      (spiRead s.par.regs.fifo n.toNat (started (.fifor n) s)))) := by
  rw [stepsOf, fiforSteps, opB_of_cmd rfl]
  rfl

/-! ## The commands -/

/-- Settles O11: label 0 of REGW is one register write, and ends the command. -/
theorem regwWritesOneRegister : Obligations.RegwWritesOneRegister := by
  intro a v s hready
  obtain ⟨hexec, hends⟩ := exec_of_label_finish (i := .regw a v) hready nofun (regw_label a v s) rfl
    (wiresIdle_spiWrite _ _ _)
  exact ⟨_, hexec, hends, rfl, bufByte_congr rfl rfl, rfl, rfl⟩

/-- Settles O12: label 0 of REGR is one register read whose answer goes to RDATA, and ends the command. -/
theorem regrReadsOneRegister : Obligations.RegrReadsOneRegister := by
  intro a s hready
  have htrace : (regRead (a.setWidth 7) (started (.regr a) s)).trace =
      s.trace ++ [.r (a.setWidth 7) 1 [regAnswer (a.setWidth 7) (started (.regr a) s)]] := by
    rw [regRead, spiRead_trace, spiAnswer_one]
    rfl
  obtain ⟨hexec, hends⟩ := exec_of_label_finish (i := .regr a) hready nofun (regr_label a s) htrace
    (wiresIdle_spiRead (a.setWidth 7) 1 _)
  exact ⟨_, _, hexec, hends, fun _ _ hchip => regRead_scripted (s := started (.regr a) s) _ hchip,
    bufByte_congr rfl rfl, rfl, rfl⟩

/-- Settles O13: label 0 of FIFOW is one write burst of the bytes of TXBUF, and ends the command. -/
theorem fifowStreamsTxbuf : Obligations.FifowStreamsTxbuf := by
  intro n s hready
  obtain ⟨hexec, hends⟩ := exec_of_label_finish (i := .fifow n) hready nofun (fifow_label n s) rfl
    (wiresIdle_spiWrite _ _ _)
  exact ⟨_, hexec, hends, bufByte_congr rfl rfl, rfl, rfl⟩

/-- Settles O14: label 0 of FIFOR is one read burst whose answer is stored from RXBUF[0] on, and ends the command. -/
theorem fiforFillsRxbuf : Obligations.FiforFillsRxbuf := by
  intro n s hready
  obtain ⟨hexec, hends⟩ := exec_of_label_finish (i := .fifor n) hready nofun (fifor_label n s) rfl
    (wiresIdle_spiRead s.par.regs.fifo n.toNat _)
  have hlen := spiAnswer_length s.par.regs.fifo n.toNat (started (.fifor n) s)
  refine ⟨_, _, hexec, hlen, hends, fun i b hb => ?_, fun x hx => ?_, fun bytes rest hbytes hchip => ?_, rfl, rfl⟩
  · exact bufByte_storeRx_stored 0 hb _
  · refine (bufByte_storeRx 0 _ _ x).trans ?_
    rw [if_neg (by simpa only [rxBufBase, hlen, Nat.add_zero] using hx)]
    rfl
  · rw [← hbytes]
    exact spiRead_scripted (s := started (.fifor n) s) _ hchip

end Sys2Proof.Machine
end

section
/-! SUPPORT. Proofs about the mode commands (41_mode.md R170 to R173): a command that only writes registers, and what
STBY, TXM and RXM write. -/

namespace Sys2Proof.Machine

open Sys2Proof.Claims

/-! ## A series of register writes (R51, R143) -/

/-- Register writes one after another, the first of the list first. -/
def regWrites (ws : List (ChipAddr × Byte)) (s : State) : State := ws.foldl (fun u w => regWrite w.1 w.2 u) s

/-- What the observer sees of a series of register writes (R6). -/
def writeEvents (ws : List (ChipAddr × Byte)) : List Event := ws.map fun w => .w w.1 [w.2]

/-- Register writes change the chip, the count of free draws, the wires and the observation, and nothing else. -/
theorem regWrites_eq (ws : List (ChipAddr × Byte)) (s : State) : regWrites ws s = { s with
    chip := (regWrites ws s).chip
    spi := (regWrites ws s).spi
    draws := (regWrites ws s).draws
    trace := s.trace ++ writeEvents ws } := by
  induction ws generalizing s with
  | nil => rw [writeEvents, List.map_nil, List.append_nil]; rfl
  | cons w ws ih =>
    refine (ih (regWrite w.1 w.2 s)).trans ?_
    rw [regWrite, spiWrite_trace, List.append_assoc]
    rfl

/-- The last write of a series leaves the wires idle, whatever they were before (R146). -/
theorem wiresIdle_regWrites {ws : List (ChipAddr × Byte)} (h : ws ≠ []) (s : State) : WiresIdle (regWrites ws s) := by
  rw [← List.dropLast_append_getLast h, regWrites, List.foldl_append]
  exact wiresIdle_spiWrite _ _ _

/-- A command whose labels are the register writes `ws` completes with these and nothing else. -/
theorem exec_of_regWrites {i : Instr} {s : State} {ws : List (ChipAddr × Byte)} (hready : Ready s)
    (hi : i.opcode ≠ .config) (hws : ws ≠ [])
    (hrun : runTable (stepsOf i.opcode) (mostLabels i.opcode) (started i s) = finish (regWrites ws (started i s))) :
    ∃ t, exec i s = .next t ∧ Ends s t (ended s) s.csr (latched i s) (writeEvents ws) ∧ SameBuffers s t ∧
      SameTimers s t := by
  have hexec : exec i s = .next (finish (regWrites ws (started i s))) := by
    rw [exec_eq_runTable i hready, beginCommand_accept hi]
    exact congrArg _ hrun
  have hwires := wiresIdle_regWrites hws (started i s)
  rw [regWrites_eq] at hexec hwires
  exact ⟨_, hexec, ⟨rfl, rfl, rfl, rfl, rfl, hwires, ⟨rfl, rfl, rfl, rfl, rfl, rfl⟩⟩, bufByte_congr rfl rfl, rfl, rfl⟩

/-! ## The runs of the three commands through their labels -/

/-- The writes of RXM, in the order of R172. -/
def rxmWrites (p : Params) : List (ChipAddr × Byte) :=
  [(p.regs.dioMapping1, p.dioRxDone), (p.regs.irqFlags, Config.irqClearAll), (p.regs.fifoAddrPtr, Config.rxBase),
    (p.regs.opmode, loraRxCont p)]

/-- A command of one label, which does the work `u` and ends it. -/
theorem run_of_only_label {i : Instr} {s u : State} (h : stepsOf i.opcode 0 (started i s) = some (finish u)) :
    runTable (stepsOf i.opcode) 1 (started i s) = finish u :=
  (runTable_step rfl h).trans (runTable_idle _ 0 (finish_seq u))

theorem stby_label (s : State) : stepsOf .stby 0 (started .stby s) =
    some (finish (regWrites [(s.par.regs.opmode, loraStandby s.par)] (started .stby s))) := rfl

theorem txm_label (s : State) : stepsOf .txm 0 (started .txm s) =
    some (finish (regWrites [(s.par.regs.opmode, loraTx s.par)] (started .txm s))) := rfl

/-- RXM goes through its labels 0 to 3, one write at each. -/
theorem rxm_run (s : State) : runTable (stepsOf .rxm) 4 (started .rxm s) =
    finish (regWrites (rxmWrites s.par) (started .rxm s)) := by
  rw [runTable_step rfl rfl, runTable_step rfl rfl, runTable_step rfl rfl, runTable_step rfl rfl,
    runTable_idle _ _ rfl]
  rfl

/-! ## The commands -/

/-- Settles O15: the one label of STBY, and of TXM, is a write of the mode register, and ends the command. -/
theorem stbyAndTxmWriteOnlyTheMode : Obligations.StbyAndTxmWriteOnlyTheMode := fun s hready =>
  ⟨exec_of_regWrites (i := .stby) hready nofun (List.cons_ne_nil _ _) (run_of_only_label (stby_label s)),
    exec_of_regWrites (i := .txm) hready nofun (List.cons_ne_nil _ _) (run_of_only_label (txm_label s))⟩

/-- Settles O16: the four labels of RXM are its four register writes in order, and the last one ends the command. -/
theorem rxmPreparesThenEntersReceive : Obligations.RxmPreparesThenEntersReceive := fun s hready =>
  exec_of_regWrites (i := .rxm) hready nofun (List.cons_ne_nil _ _) (rxm_run s)

end Sys2Proof.Machine
end

section
/-! SUPPORT. Proofs about the transmit path (42_transmit.md R180 to R184): the table of the transmit-completion state
machine, the run of SEND through its set-up, its polls and its end, and what SEND does with any chip and with a
scripted one. -/

namespace Sys2Proof.Machine

open Sys2Proof.Claims

/-! ## The test of label 7 (R181, R183) -/

theorem txDoneSet_iff {p : Params} {f : Byte} : txDoneSet p f = true ↔ f &&& p.irqTxDone ≠ 0#8 := decide_eq_true_iff

/-- The outcome of a SEND whose last read of the flags is `f`. -/
def sendOutcome (p : Params) (f : Byte) : TxOutcome := if f &&& p.irqTxDone ≠ 0#8 then .delivered else .timeout

/-- A byte that shows transmit-done, or any byte after 1000 waits, ends the loop. -/
theorem sendPolled_last {f : Byte} {s : State} (h : f &&& s.par.irqTxDone ≠ 0#8 ∨ s.lat.k.toNat = 1000) :
    sendPolled f s = goto .send 9#8 (setTxOutcome (sendOutcome s.par f) (setIrqf f s)) := by
  by_cases hf : f &&& s.par.irqTxDone ≠ 0#8
  · rw [sendPolled, if_pos (txDoneSet_iff.mpr hf), sendOutcome, if_pos hf]
  · have hk : s.lat.k.toNat = Config.txTimeoutMs := h.resolve_left hf
    rw [sendPolled, if_neg (mt txDoneSet_iff.mp hf), if_pos hk, sendOutcome, if_neg hf]

/-- Any other byte is followed by a wait. -/
theorem sendPolled_again {f : Byte} {s : State} (h : ¬ (f &&& s.par.irqTxDone ≠ 0#8 ∨ s.lat.k.toNat = 1000)) :
    sendPolled f s = goto .send 8#8 (setIrqf f s) := by
  obtain ⟨hf, hk⟩ : ¬ f &&& s.par.irqTxDone ≠ 0#8 ∧ ¬ s.lat.k.toNat = Config.txTimeoutMs := not_or.mp h
  rw [sendPolled, if_neg (mt txDoneSet_iff.mp hf), if_neg hk]

theorem sendPolled_trace (f : Byte) (s : State) : (sendPolled f s).trace = s.trace := by
  by_cases h : f &&& s.par.irqTxDone ≠ 0#8 ∨ s.lat.k.toNat = 1000
  · rw [sendPolled_last h]; rfl
  · rw [sendPolled_again h]; rfl

theorem sendPolled_seq (f : Byte) (s : State) : (sendPolled f s).seq =
    if f &&& s.par.irqTxDone ≠ 0#8 ∨ s.lat.k.toNat = 1000 then .run .send 9#8 else .run .send 8#8 := by
  by_cases h : f &&& s.par.irqTxDone ≠ 0#8 ∨ s.lat.k.toNat = 1000
  · rw [sendPolled_last h, if_pos h]; rfl
  · rw [sendPolled_again h, if_neg h]; rfl

theorem regRead_trace_byte (a : ChipAddr) (s : State) : (regRead a s).trace = s.trace ++ [.r a 1 [regAnswer a s]] := by
  rw [regRead_trace, spiAnswer_one]

/-! ## The table of the state machine (R181) -/

/-- The action column of R181: the one event of each label, label 10 the last. -/
def sendEvent (s : State) : Nat → Event
  | 0 => .w s.par.regs.opmode [loraStandby s.par]
  | 1 => .w s.par.regs.fifoAddrPtr [Config.txBase]
  | 2 => .w s.par.regs.fifo (txBytes s (sendLength s.lat.txlen))
  | 3 => .w s.par.regs.payloadLength [BitVec.ofNat 8 (sendLength s.lat.txlen)]
  | 4 => .w s.par.regs.dioMapping1 [Config.dioTxDone]
  | 5 => .w s.par.regs.irqFlags [Config.irqClearAll]
  | 6 => .w s.par.regs.opmode [loraTx s.par]
  | 7 => .r s.par.regs.irqFlags 1 [regAnswer s.par.regs.irqFlags s]
  | 8 => .wait Config.txPollMs
  | 9 => .w s.par.regs.irqFlags [s.par.irqTxDone]
  | _ => .w s.par.regs.opmode [loraStandby s.par]

/-- The next-step column of R181. -/
def sendNext (s : State) : Nat → Seq
  | 7 => if regAnswer s.par.regs.irqFlags s &&& s.par.irqTxDone ≠ 0#8 ∨ s.lat.k.toNat = 1000 then .run .send 9#8
      else .run .send 8#8
  | 8 => .run .send 7#8
  | 10 => .idle
  | n => .run .send (BitVec.ofNat 8 (n + 1))

/-- A label of SEND is its row of the table. -/
theorem sendSteps_row {s : State} : ∀ {n : Nat} {t : State}, sendSteps n s = some t →
    t.trace = s.trace ++ [sendEvent s n] ∧ t.seq = sendNext s n
  | 7, _, rfl => ⟨(sendPolled_trace _ _).trans (regRead_trace_byte _ s), sendPolled_seq _ _⟩
  | 0, _, rfl | 1, _, rfl | 2, _, rfl | 3, _, rfl | 4, _, rfl | 5, _, rfl | 6, _, rfl | 8, _, rfl | 9, _, rfl
  | 10, _, rfl => ⟨rfl, rfl⟩
  | _ + 11, _, h => nomatch h

/-- Settles O19: FSM is the named register at 0x044, and each label is its row of the table. -/
theorem sendStateMachineTable : Obligations.SendStateMachineTable := by
  intro s n hrst hseq hn
  have hread : hostRead 0x044#12 s = respond (fsmWord s) false s := hostRead_named hrst (r := .fsm) (by decide)
  obtain ⟨t, ht⟩ := Option.isSome_iff_exists.mp (stepsOf_isSome (o := .send) s hn)
  obtain ⟨htrace, hnext⟩ := sendSteps_row ht
  refine ⟨by rw [hread, respond_bus, fsmWord, hseq]; rfl, t, sendEvent s n.toNat, sendNext s n.toNat,
    (seqMove_run_iff hrst hseq).mpr ht, htrace, hnext, ?_, ?_, ?_, ?_, ?_, ?_, ?_, ?poll, ?_, ?_, ?_⟩
  case poll => rintro rfl; exact ⟨_, rfl, rfl⟩
  all_goals rintro rfl; exact ⟨rfl, rfl⟩

/-! ## The run of SEND: set-up, polls, end (R182) -/

/-- SEND of a ready block at label 7 for the first time: the writes of labels 0 to 6, and `k` from 0. -/
def sendSetUp (s : State) : State :=
  goto .send 7#8 (regWrites
    [(s.par.regs.payloadLength, BitVec.ofNat 8 (sendLength s.csr.txlen)), (s.par.regs.dioMapping1, Config.dioTxDone),
      (s.par.regs.irqFlags, Config.irqClearAll), (s.par.regs.opmode, loraTx s.par)]
    (spiWrite s.par.regs.fifo (txBytes s (sendLength s.csr.txlen))
      (regWrite s.par.regs.fifoAddrPtr Config.txBase
        (sendStart (regWrite s.par.regs.opmode (loraStandby s.par) (started .send s))))))

/-- Labels 7 and 8 when the loop goes on: a read of the flags and a wait. -/
def pollAndWait (s : State) : State :=
  goto .send 7#8 (sendWaited (waitMs Config.txPollMs
    (setIrqf (regAnswer s.par.regs.irqFlags s) (regRead s.par.regs.irqFlags s))))

/-- SEND at label 7 after `n` waits. -/
def polling (s : State) : Nat → State
  | 0 => sendSetUp s
  | n + 1 => pollAndWait (polling s n)

/-- What the read of the flags after `n` waits returns. -/
def pollAnswer (s : State) (n : Nat) : Byte := regAnswer s.par.regs.irqFlags (polling s n)

/-- The bytes read before the first `n` waits. -/
def pollAnswers (s : State) (n : Nat) : List Byte := (List.range n).map (pollAnswer s)

theorem pollAnswers_length (s : State) (n : Nat) : (pollAnswers s n).length = n := by simp [pollAnswers]

theorem pollAnswers_succ (s : State) (n : Nat) : pollAnswers s (n + 1) = pollAnswers s n ++ [pollAnswer s n] := by
  simp [pollAnswers, List.range_succ]

/-- A SEND whose last read of the flags is the one after `n` waits: that read and labels 9 and 10. -/
def sendDone (s : State) (n : Nat) : State :=
  finish (regWrites [(s.par.regs.irqFlags, s.par.irqTxDone), (s.par.regs.opmode, loraStandby s.par)]
    (setTxOutcome (sendOutcome s.par (pollAnswer s n))
      (setIrqf (pollAnswer s n) (regRead s.par.regs.irqFlags (polling s n)))))

/-- The read of the flags after `n` waits is the first one that ends the loop (R183). -/
structure LastPoll (s : State) (n : Nat) : Prop where
  bound : n ≤ 1000
  before : ∀ i < n, pollAnswer s i &&& s.par.irqTxDone = 0#8
  last : pollAnswer s n &&& s.par.irqTxDone ≠ 0#8 ∨ n = 1000

/-- Whatever the chip answers, some read ends the loop (R184). -/
theorem exists_lastPoll (s : State) : ∃ n, LastPoll s n := by
  have hsome : ∃ n, pollAnswer s n &&& s.par.irqTxDone ≠ 0#8 ∨ n = 1000 := ⟨1000, .inr rfl⟩
  refine ⟨Nat.find hsome, Nat.find_min' hsome (.inr rfl), fun i hi => ?_, Nat.find_spec hsome⟩
  exact not_not.mp (not_or.mp (Nat.find_min hsome hi)).1

/-! ## What the loop leaves alone and what it counts (R183, R184) -/

/-- But for what the polls and waits of SEND change, `t` is `s`. -/
def LoopLeaves (s t : State) : Prop :=
  { t with
    seq := s.seq
    csr := { t.csr with irqf := s.csr.irqf, txwaits := s.csr.txwaits }
    lat := { t.lat with k := s.lat.k }
    chip := s.chip
    trace := s.trace
    spi := s.spi
    draws := s.draws
    waitCnt := s.waitCnt } = s

theorem LoopLeaves.refl (s : State) : LoopLeaves s s := rfl

theorem LoopLeaves.pollAndWait {s t : State} (h : LoopLeaves s t) : LoopLeaves s (pollAndWait t) := h

theorem polling_leaves (s : State) (n : Nat) : LoopLeaves (sendSetUp s) (polling s n) := by
  induction n with
  | zero => exact .refl _
  | succ n ih => exact ih.pollAndWait

theorem polling_par (s : State) (n : Nat) : (polling s n).par = s.par := congrArg (·.par) (polling_leaves s n)

theorem polling_seq (s : State) (n : Nat) : (polling s n).seq = .run .send 7#8 := by
  cases n <;> rfl

theorem polling_k (s : State) (n : Nat) : (polling s n).lat.k = BitVec.ofNat 16 n := by
  induction n with
  | zero => rfl
  | succ n ih => rw [BitVec.ofNat_add, ← ih]; rfl

theorem polling_k_toNat (s : State) {n : Nat} (h : n ≤ 1000) : (polling s n).lat.k.toNat = n := by
  rw [polling_k, BitVec.toNat_ofNat]
  omega

theorem polling_txwaits (s : State) (n : Nat) : (polling s n).csr.txwaits = BitVec.ofNat 16 n := by
  cases n with
  | zero => rfl
  | succ n => exact polling_k s (n + 1)

/-! ## What the observer sees (R6) -/

/-- The transactions of labels 0 to 6. -/
def setUpEvents (s : State) : List Event :=
  writeEvents [(s.par.regs.opmode, loraStandby s.par), (s.par.regs.fifoAddrPtr, Config.txBase)] ++
    .w s.par.regs.fifo (txBytes s (sendLength s.csr.txlen)) ::
    writeEvents [(s.par.regs.payloadLength, BitVec.ofNat 8 (sendLength s.csr.txlen)),
      (s.par.regs.dioMapping1, Config.dioTxDone), (s.par.regs.irqFlags, Config.irqClearAll),
      (s.par.regs.opmode, loraTx s.par)]

/-- A read of the flags that returned `g`, and a wait. -/
def pollEvents (p : Params) (g : Byte) : List Event := [.r p.regs.irqFlags 1 [g], .wait Config.txPollMs]

/-- The last read of the flags, which returned `f`, the acknowledge, and the return to standby. -/
def endEvents (p : Params) (f : Byte) : List Event :=
  .r p.regs.irqFlags 1 [f] :: writeEvents [(p.regs.irqFlags, p.irqTxDone), (p.regs.opmode, loraStandby p)]

theorem regWrites_trace (ws : List (ChipAddr × Byte)) (s : State) :
    (regWrites ws s).trace = s.trace ++ writeEvents ws := congrArg (·.trace) (regWrites_eq ws s)

theorem sendSetUp_trace (s : State) : (sendSetUp s).trace = s.trace ++ setUpEvents s := by
  rw [sendSetUp, goto_trace, regWrites_trace, spiWrite_trace, regWrite_trace, sendStart_trace, regWrite_trace]
  simp only [List.append_assoc]
  rfl

theorem pollAndWait_trace (s : State) : (pollAndWait s).trace =
    s.trace ++ pollEvents s.par (regAnswer s.par.regs.irqFlags s) := by
  have h := regRead_trace_byte s.par.regs.irqFlags s
  rw [pollAndWait, goto_trace, sendWaited_trace, waitMs_trace, setIrqf_trace, h, List.append_assoc]
  rfl

theorem polling_trace (s : State) (n : Nat) : (polling s n).trace =
    s.trace ++ (setUpEvents s ++ (pollAnswers s n).flatMap (pollEvents s.par)) := by
  induction n with
  | zero => exact (sendSetUp_trace s).trans (by simp [pollAnswers])
  | succ n ih =>
    rw [polling, pollAndWait_trace, ih, polling_par, pollAnswers_succ, List.flatMap_append, List.flatMap_singleton]
    simp only [List.append_assoc]
    rfl

theorem sendDone_trace (s : State) (n : Nat) : (sendDone s n).trace =
    s.trace ++ (setUpEvents s ++ (pollAnswers s n).flatMap (pollEvents s.par) ++ endEvents s.par (pollAnswer s n)) := by
  rw [sendDone, finish_trace, regWrites_trace, setTxOutcome_trace, setIrqf_trace, regRead_trace_byte, polling_trace]
  simp only [List.append_assoc]
  rfl

/-! ## SEND runs through these states -/

/-- The label the sequencer stands at has no part in a transaction. -/
theorem regWrite_goto (a : ChipAddr) (v : Byte) (o : Opcode) (m : BitVec 8) (s : State) :
    regWrite a v (goto o m s) = goto o m (regWrite a v s) := rfl

theorem spiWrite_goto (a : ChipAddr) (bytes : List Byte) (o : Opcode) (m : BitVec 8) (s : State) :
    spiWrite a bytes (goto o m s) = goto o m (spiWrite a bytes s) := rfl

theorem goto_goto (o o' : Opcode) (m m' : BitVec 8) (s : State) : goto o m (goto o' m' s) = goto o m s := rfl

theorem run_setUp (s : State) (fuel : Nat) :
    runTable sendSteps (fuel + 7) (started .send s) = runTable sendSteps fuel (sendSetUp s) := by
  rw [runTable_step rfl rfl, runTable_step rfl rfl, runTable_step rfl rfl, runTable_step rfl rfl,
    runTable_step rfl rfl, runTable_step rfl rfl, runTable_step rfl rfl]
  simp only [regWrite_goto, spiWrite_goto, goto_goto]
  rfl

/-- A label 7 that does not end the loop, and label 8. -/
theorem run_pollAndWait {s : State} (hseq : s.seq = .run .send 7#8)
    (h : ¬ (regAnswer s.par.regs.irqFlags s &&& s.par.irqTxDone ≠ 0#8 ∨ s.lat.k.toNat = 1000)) (fuel : Nat) :
    runTable sendSteps (fuel + 2) s = runTable sendSteps fuel (pollAndWait s) := by
  have hlabel : sendSteps 7 s = some (goto .send 8#8
      (setIrqf (regAnswer s.par.regs.irqFlags s) (regRead s.par.regs.irqFlags s))) := congrArg some (sendPolled_again h)
  rw [runTable_step hseq hlabel, runTable_step rfl rfl]
  rfl

/-- A label 7 that ends the loop, and labels 9 and 10. -/
theorem run_lastPoll {s : State} {f : Byte} (hseq : s.seq = .run .send 7#8) (hf : regAnswer s.par.regs.irqFlags s = f)
    (h : f &&& s.par.irqTxDone ≠ 0#8 ∨ s.lat.k.toNat = 1000) (fuel : Nat) :
    runTable sendSteps (fuel + 3) s =
      finish (regWrites [(s.par.regs.irqFlags, s.par.irqTxDone), (s.par.regs.opmode, loraStandby s.par)]
        (setTxOutcome (sendOutcome s.par f) (setIrqf f (regRead s.par.regs.irqFlags s)))) := by
  have hlabel : sendSteps 7 s = some (goto .send 9#8
      (setTxOutcome (sendOutcome s.par f) (setIrqf f (regRead s.par.regs.irqFlags s)))) := by
    subst hf
    exact congrArg some (sendPolled_last h)
  rw [runTable_step hseq hlabel, runTable_step rfl rfl, runTable_step rfl rfl, runTable_idle _ _ rfl]
  rfl

/-- No read before the last one ends the loop. -/
theorem run_polling {s : State} {m : Nat} (h : LastPoll s m) {n : Nat} (hn : n ≤ m) (fuel : Nat) :
    runTable sendSteps (fuel + 2 * n) (sendSetUp s) = runTable sendSteps fuel (polling s n) := by
  induction n generalizing fuel with
  | zero => rfl
  | succ n ih =>
    have hbound := h.bound
    have hagain : ¬ (pollAnswer s n &&& s.par.irqTxDone ≠ 0#8 ∨ (polling s n).lat.k.toNat = 1000) := by
      rw [polling_k_toNat s (by omega)]
      exact not_or.mpr ⟨not_not.mpr (h.before n hn), by omega⟩
    rw [show fuel + 2 * (n + 1) = fuel + 2 + 2 * n by omega, ih (by omega)]
    refine run_pollAndWait (polling_seq s n) ?_ fuel
    rw [polling_par]
    exact hagain

/-- SEND on a ready block ends after its last poll (R183). -/
theorem exec_send {s : State} {n : Nat} (hready : Ready s) (h : LastPoll s n) :
    exec .send s = .next (sendDone s n) := by
  obtain ⟨fuel, hfuel⟩ : ∃ fuel, mostLabels .send = fuel + 3 + 2 * n + 7 := by
    have hbound := h.bound
    refine ⟨2000 - 2 * n, ?_⟩
    simp only [mostLabels, sendFuel, Config.txTimeoutMs]
    omega
  have hlast : pollAnswer s n &&& (polling s n).par.irqTxDone ≠ 0#8 ∨ (polling s n).lat.k.toNat = 1000 := by
    rw [polling_par, polling_k_toNat s h.bound]
    exact h.last
  have hend := run_lastPoll (f := pollAnswer s n) (polling_seq s n) (by rw [polling_par]; rfl) hlast fuel
  rw [polling_par] at hend
  have hrun : runTable sendSteps (mostLabels .send) (started .send s) = sendDone s n := by
    rw [hfuel, run_setUp, run_polling h le_rfl]
    exact hend
  rw [exec_eq_runTable .send hready, beginCommand_accept (i := .send) nofun]
  exact congrArg _ hrun

/-! ## What SEND does -/

/-- SEND ends with the registers, latches and events of R182 and R183. -/
theorem sendDone_ends (s : State) (n : Nat) : Ends s (sendDone s n)
    { ended s with txOutcome := sendOutcome s.par (pollAnswer s n) }
    { s.csr with
      txn := BitVec.ofNat 8 (sendLength s.csr.txlen)
      txwaits := BitVec.ofNat 16 n
      irqf := pollAnswer s n }
    { latched .send s with k := BitVec.ofNat 16 n }
    (setUpEvents s ++ (pollAnswers s n).flatMap (pollEvents s.par) ++ endEvents s.par (pollAnswer s n)) where
  idle := rfl
  status :=
    congrArg (fun t => { t.status with txOutcome := sendOutcome s.par (pollAnswer s n), done := true })
      (polling_leaves s n)
  csr := by
    have hleft := congrArg (fun t => { t.csr with txwaits := BitVec.ofNat 16 n, irqf := pollAnswer s n })
      (polling_leaves s n)
    rw [← polling_txwaits s n] at hleft ⊢
    exact hleft
  lat := by
    have hleft := congrArg (fun t => { t.lat with k := BitVec.ofNat 16 n }) (polling_leaves s n)
    rw [← polling_k s n] at hleft ⊢
    exact hleft
  trace := sendDone_trace s n
  wires := wiresIdle_regWrites (List.cons_ne_nil _ _) _
  around :=
    have hleft := polling_leaves s n
    ⟨congrArg (·.sync) hleft, congrArg (·.rstN) hleft, congrArg (·.par) hleft, congrArg (·.inputs) hleft,
      congrArg (·.vars) hleft, congrArg (·.epoch) hleft⟩

theorem mem_pollAnswers {s : State} {n : Nat} (h : LastPoll s n) :
    ∀ g ∈ pollAnswers s n, g &&& s.par.irqTxDone = 0#8 := by
  intro g hg
  obtain ⟨i, hi, rfl⟩ := List.mem_map.mp hg
  exact h.before i (List.mem_range.mp hi)

/-- Settles O17: with the first read that ends the loop as the last one, SEND runs through its labels to `sendDone`. -/
theorem sendRunsToDeliveredOrTimeout : Obligations.SendRunsToDeliveredOrTimeout := by
  intro s hready
  obtain ⟨n, h⟩ := exists_lastPoll s
  have hleft := polling_leaves s n
  refine ⟨sendDone s n, pollAnswers s n, pollAnswer s n, exec_send hready h, ?_⟩
  rw [pollAnswers_length]
  exact ⟨h.bound, mem_pollAnswers h, h.last, sendDone_ends s n,
    bufByte_congr (congrArg (·.mem) hleft) (congrArg (·.epoch) hleft), congrArg (·.resetN) hleft⟩

/-! ## A scripted chip (R80) -/

/-- An oracle keeps its script through a series of writes. -/
theorem regWrites_scripted (ws : List (ChipAddr × Byte)) {s : State} {answers : List Byte}
    (h : s.chip = .oracle answers) : (regWrites ws s).chip = .oracle answers := by
  induction ws generalizing s with
  | nil => exact h
  | cons w ws ih => exact ih (by rw [regWrite_chip, h, Chip.write])

theorem sendSetUp_scripted {s : State} {answers : List Byte} (h : s.chip = .oracle answers) :
    (sendSetUp s).chip = .oracle answers := by
  have hstarted : (started .send s).chip = .oracle answers := h
  rw [sendSetUp, goto_chip]
  refine regWrites_scripted _ ?_
  rw [spiWrite_chip, regWrite_chip, sendStart_chip, regWrite_chip, hstarted]
  rfl

/-- The reads of the loop take the scripted answers in their order. -/
theorem polling_scripted {s : State} {fs rest : List Byte} (h : s.chip = .oracle (fs ++ rest)) :
    (polling s fs.length).chip = .oracle rest := by
  induction fs using List.reverseRecOn generalizing rest with
  | nil => exact sendSetUp_scripted h
  | append_singleton fs f ih =>
    rw [List.append_assoc] at h
    rw [List.length_append, List.length_singleton, polling]
    exact (regRead_scripted _ (ih h)).2

theorem pollAnswer_scripted {s : State} {fs rest : List Byte} {f : Byte} (h : s.chip = .oracle (fs ++ f :: rest)) :
    pollAnswer s fs.length = f := (regRead_scripted _ (polling_scripted h)).1

/-- The first scripted answer that ends the loop is the last one read. -/
theorem lastPoll_scripted {s : State} {fs rest : List Byte} {f : Byte} (h : s.chip = .oracle (fs ++ f :: rest))
    (hlen : fs.length ≤ 1000) (hbefore : ∀ g ∈ fs, g &&& s.par.irqTxDone = 0#8)
    (hlast : f &&& s.par.irqTxDone ≠ 0#8 ∨ fs.length = 1000) : LastPoll s fs.length := by
  refine ⟨hlen, fun i hi => ?_, by rwa [pollAnswer_scripted h]⟩
  have hsplit : fs ++ f :: rest = fs.take i ++ fs[i] :: (fs.drop (i + 1) ++ f :: rest) := by
    rw [← List.cons_append, ← List.append_assoc, ← List.drop_eq_getElem_cons hi, List.take_append_drop]
  have hanswer := pollAnswer_scripted (hsplit ▸ h)
  rw [List.length_take_of_le hi.le] at hanswer
  rw [hanswer]
  exact hbefore _ (List.getElem_mem hi)

theorem length_flatMap_pollEvents (p : Params) (fs : List Byte) :
    (fs.flatMap (pollEvents p)).length = 2 * fs.length := by
  simp [List.length_flatMap, pollEvents, Nat.mul_comm]

/-- Settles O18: the script says which read of the flags is the last one, and SEND ends after it as with any chip. -/
theorem sendFollowsTheChipsAnswers : Obligations.SendFollowsTheChipsAnswers := by
  intro s fs f rest hready hlen hbefore hlast hchip
  have h := lastPoll_scripted hchip hlen hbefore hlast
  have hf := pollAnswer_scripted hchip
  obtain ⟨-, hstatus, hcsr, -, htrace, -, -⟩ := sendDone_ends s fs.length
  refine ⟨sendDone s fs.length, exec_send hready h, ?_, ?_, ?_, ?_, ?_⟩
  · have hread := (regRead_scripted s.par.regs.irqFlags (polling_scripted hchip)).2
    rw [sendDone, finish_chip]
    refine regWrites_scripted _ ?_
    rwa [setTxOutcome_chip, setIrqf_chip]
  · rw [hcsr, hf]
  · rw [hcsr]
  · rw [hstatus, hf]; rfl
  · have hsetUp : (setUpEvents s).length = 7 := rfl
    have hend : (endEvents s.par (pollAnswer s fs.length)).length = 3 := rfl
    simp only [htrace, List.length_append, length_flatMap_pollEvents, pollAnswers_length, hsetUp, hend]
    omega

end Sys2Proof.Machine
end

section
/-! SUPPORT. Proofs about the receive path (43_receive.md R200 to R206): the values of RSSI and SNRDB, AVAIL, the run of
RECV through its labels to each of its three ends, and what RECV does with any chip and with a scripted one. -/

namespace Sys2Proof.Machine

open Sys2Proof.Claims

/-! ## RSSI and SNRDB (R204, R205) -/

theorem rssiValue_toInt (r : Byte) : (rssiValue r).toInt = (r.toNat : Int) - 157 := by
  have hr := r.isLt
  rw [rssiValue, BitVec.toInt_signExtend_of_le (by decide), BitVec.toInt_ofInt, Config.rssiOffset]
  exact Int.bmod_eq_of_le (by omega) (by omega)

/-- The s16 is wide enough for the difference: narrowing it there and extending it loses nothing. -/
theorem rssiValue_eq (r : Byte) : rssiValue r = BitVec.ofInt 32 ((r.toNat : Int) - 157) := by
  rw [← rssiValue_toInt, BitVec.ofInt_toInt]

theorem snrDbValue_toInt (q : Byte) : (snrDbValue q).toInt = q.toInt.tdiv 4 := by
  have hlo := BitVec.le_toInt q
  have hhi := BitVec.toInt_lt (x := q)
  have hquot := Int.natAbs_tdiv_le_natAbs q.toInt 4
  rw [snrDbValue, BitVec.toInt_ofInt, Config.snrDiv]
  exact Int.bmod_eq_of_le (by omega) (by omega)

/-- Settles O28: no byte minus 157 leaves the s16. -/
theorem rssiIsRawMinusOffset : Obligations.RssiIsRawMinusOffset :=
  ⟨fun r => ⟨rssiValue_toInt r, rssiValue_range r⟩, rssiValue_toInt _, rssiValue_toInt _, rssiValue_toInt _,
    rssiValue_toInt _⟩

/-- Settles O29: the quotient fits the s32, and the update is `setSnr_csr`. -/
theorem snrIsTruncatedQuotient : Obligations.SnrIsTruncatedQuotient :=
  ⟨snrDbValue_toInt, fun q s => setSnr_csr s q, snrDbValue_toInt _, snrDbValue_toInt _, snrDbValue_toInt _,
    snrDbValue_toInt _, snrDbValue_toInt _, snrDbValue_toInt _, snrDbValue_toInt _, snrDbValue_toInt _⟩

/-! ## AVAIL (R200) -/

/-- Settles O20: label 0 of AVAIL is one read of the flags, whose answer goes to IRQF and AVAIL; it ends AVAIL. -/
theorem availPeeksTheFlags : Obligations.AvailPeeksTheFlags := by
  intro s hready
  obtain ⟨hexec, hends⟩ := exec_of_label_finish (i := .avail) hready nofun rfl
    (regRead_trace_byte s.par.regs.irqFlags (started .avail s)) (wiresIdle_spiRead s.par.regs.irqFlags 1 _)
  exact ⟨_, _, hexec, hends, fun _ _ hchip => regRead_scripted (s := started .avail s) _ hchip,
    bufByte_congr rfl rfl, rfl, rfl⟩

/-! ## The tests of labels 0 and 1 (R202, R203) -/

theorem rxDoneSet_iff {p : Params} {f : Byte} : rxDoneSet p f = true ↔ f &&& p.irqRxDone ≠ 0#8 := decide_eq_true_iff

theorem recvFlags_done {f : Byte} {s : State} (h : f &&& s.par.irqRxDone ≠ 0#8) :
    recvFlags f s = goto .recv 1#8 (setIrqf f s) := by
  rw [recvFlags, if_pos (rxDoneSet_iff.mpr h)]

theorem recvFlags_clear {f : Byte} {s : State} (h : f &&& s.par.irqRxDone = 0#8) :
    recvFlags f s = finish (setRx false .nothing (setIrqf f s)) := by
  rw [recvFlags, if_neg (mt rxDoneSet_iff.mp (not_not.mpr h))]

theorem recvLength_inside {nb : Byte} {s : State} (h : 0 < nb.toNat ∧ nb.toNat < 64) :
    recvLength nb s = goto .recv 2#8 (setNb nb s) := by
  rw [recvLength, if_pos (lengthAccepted_iff.mpr h)]

theorem recvLength_outside {nb : Byte} {s : State} (h : ¬ (0 < nb.toNat ∧ nb.toNat < 64)) :
    recvLength nb s = goto .recv 8#8 (setNb nb s) := by
  rw [recvLength, if_neg (mt lengthAccepted_iff.mp h)]

/-! ## The payload in RXBUF (R206) -/

theorem bufByte_recvPayload (d : List Byte) (s : State) (x : Nat) : bufByte (recvPayload d s) x =
    if x = rxBufBase + s.lat.nb.toNat then 0x00#8 else bufByte (storeRx 0 d s) x := by
  refine (bufByte_storeRx s.lat.nb.toNat [0x00#8] (storeRx 0 d s) x).trans ?_
  by_cases hx : x = rxBufBase + s.lat.nb.toNat
  · rw [if_pos hx, hx, if_pos ⟨le_rfl, Nat.lt_succ_self _⟩, Nat.sub_self]
    rfl
  · rw [if_neg hx, if_neg (by rw [List.length_singleton]; omega)]

/-- The terminator stands after the payload, not in it. -/
theorem bufByte_recvPayload_stored {d : List Byte} {s : State} (hlen : d.length = s.lat.nb.toNat) {i : Nat} {b : Byte}
    (h : d[i]? = some b) : bufByte (recvPayload d s) (rxBufBase + i) = b := by
  obtain ⟨hi, -⟩ := List.getElem?_eq_some_iff.mp h
  rw [bufByte_recvPayload, if_neg (by omega)]
  exact bufByte_storeRx_stored 0 h s

theorem bufByte_recvPayload_other {d : List Byte} {s : State} (hlen : d.length = s.lat.nb.toNat) {x : Nat}
    (hx : ¬ (rxBufBase ≤ x ∧ x ≤ rxBufBase + s.lat.nb.toNat)) : bufByte (recvPayload d s) x = bufByte s x := by
  rw [bufByte_recvPayload, if_neg (by omega), bufByte_storeRx, if_neg (by omega)]

/-! ## The run of RECV (R202): the state at each label and the byte read there -/

namespace Recv

/-- What label 0 reads. -/
def flags (s : State) : Byte := regAnswer s.par.regs.irqFlags (started .recv s)

/-- RECV at label 0 with IRQF written. -/
def peeked (s : State) : State := setIrqf (flags s) (regRead s.par.regs.irqFlags (started .recv s))

/-- The end NOTHING. -/
def nothing (s : State) : State := finish (setRx false .nothing (peeked s))

/-- RECV at label 1. -/
def atCount (s : State) : State := goto .recv 1#8 (peeked s)

/-- What label 1 reads. -/
def count (s : State) : Byte := regAnswer s.par.regs.rxNbBytes (atCount s)

/-- RECV at label 1 with `nb` and RXNB written. -/
def counted (s : State) : State := setNb (count s) (regRead s.par.regs.rxNbBytes (atCount s))

/-- The end REJECTED: label 8. -/
def rejected (s : State) : State :=
  finish (setRx false .rejected (regWrite s.par.regs.irqFlags Config.irqClearAll (goto .recv 8#8 (counted s))))

/-- RECV at label 2. -/
def atAddress (s : State) : State := goto .recv 2#8 (counted s)

/-- What label 2 reads. -/
def address (s : State) : Byte := regAnswer s.par.regs.fifoRxCurrent (atAddress s)

/-- RECV at label 3. -/
def atPointer (s : State) : State :=
  goto .recv 3#8 (setRxAddr (address s) (regRead s.par.regs.fifoRxCurrent (atAddress s)))

/-- RECV at label 4. -/
def atBurst (s : State) : State := goto .recv 4#8 (regWrite s.par.regs.fifoAddrPtr (address s) (atPointer s))

/-- The bytes of label 4's burst. -/
def payload (s : State) : List Byte := spiAnswer s.par.regs.fifo (count s).toNat (atBurst s)

/-- RECV at label 5. -/
def atRssi (s : State) : State :=
  goto .recv 5#8 (recvPayload (payload s) (spiRead s.par.regs.fifo (count s).toNat (atBurst s)))

/-- What label 5 reads. -/
def rawRssi (s : State) : Byte := regAnswer s.par.regs.pktRssi (atRssi s)

/-- RECV at label 6. -/
def atSnr (s : State) : State := goto .recv 6#8 (setRssi (rawRssi s) (regRead s.par.regs.pktRssi (atRssi s)))

/-- What label 6 reads. -/
def rawSnr (s : State) : Byte := regAnswer s.par.regs.pktSnr (atSnr s)

/-- RECV at label 7. -/
def atClear (s : State) : State := goto .recv 7#8 (setSnr (rawSnr s) (regRead s.par.regs.pktSnr (atSnr s)))

/-- The end ACCEPTED: label 7. -/
def accepted (s : State) : State :=
  finish (setRx true .accepted (regWrite s.par.regs.irqFlags Config.irqClearAll (atClear s)))

/-! ### RECV runs through these states -/

variable {s : State}

theorem exec_of_run {t : State} (hready : Ready s) (hrun : runTable recvSteps 8 (started .recv s) = t) :
    exec .recv s = .next t := by
  rw [exec_eq_runTable .recv hready, beginCommand_accept (i := .recv) nofun]
  exact congrArg _ hrun

theorem exec_nothing (hready : Ready s) (h : flags s &&& s.par.irqRxDone = 0#8) :
    exec .recv s = .next (nothing s) := by
  have hlabel : recvSteps 0 (started .recv s) = some (nothing s) := congrArg some (recvFlags_clear h)
  exact exec_of_run hready ((runTable_step rfl hlabel).trans (runTable_idle _ _ rfl))

theorem run_flags (h : flags s &&& s.par.irqRxDone ≠ 0#8) (fuel : Nat) :
    runTable recvSteps (fuel + 1) (started .recv s) = runTable recvSteps fuel (atCount s) := by
  have hlabel : recvSteps 0 (started .recv s) = some (atCount s) := congrArg some (recvFlags_done h)
  exact runTable_step rfl hlabel

theorem exec_rejected (hready : Ready s) (h : flags s &&& s.par.irqRxDone ≠ 0#8)
    (hnb : ¬ (0 < (count s).toNat ∧ (count s).toNat < 64)) : exec .recv s = .next (rejected s) := by
  have hlabel : recvSteps 1 (atCount s) = some (goto .recv 8#8 (counted s)) := congrArg some (recvLength_outside hnb)
  refine exec_of_run hready ((run_flags h 7).trans ?_)
  rw [runTable_step rfl hlabel, runTable_step rfl rfl, runTable_idle _ _ rfl]
  rfl

theorem exec_accepted (hready : Ready s) (h : flags s &&& s.par.irqRxDone ≠ 0#8)
    (hnb : 0 < (count s).toNat ∧ (count s).toNat < 64) : exec .recv s = .next (accepted s) := by
  have hlabel : recvSteps 1 (atCount s) = some (atAddress s) := congrArg some (recvLength_inside hnb)
  refine exec_of_run hready ((run_flags h 7).trans ?_)
  rw [runTable_step rfl hlabel, runTable_step (t := atPointer s) rfl rfl, runTable_step (t := atBurst s) rfl rfl,
    runTable_step (t := atRssi s) rfl rfl, runTable_step (t := atSnr s) rfl rfl,
    runTable_step (t := atClear s) rfl rfl, runTable_step (t := accepted s) rfl rfl]
  rfl

/-! ### What the observer sees (R6) -/

theorem peeked_trace (s : State) : (peeked s).trace = s.trace ++ [.r s.par.regs.irqFlags 1 [flags s]] :=
  regRead_trace_byte s.par.regs.irqFlags (started .recv s)

theorem counted_trace (s : State) : (counted s).trace =
    s.trace ++ [.r s.par.regs.irqFlags 1 [flags s], .r s.par.regs.rxNbBytes 1 [count s]] := by
  refine (regRead_trace_byte s.par.regs.rxNbBytes (atCount s)).trans ?_
  rw [atCount, goto_trace, peeked_trace, List.append_assoc]
  rfl

theorem rejected_trace (s : State) : (rejected s).trace =
    s.trace ++ [.r s.par.regs.irqFlags 1 [flags s], .r s.par.regs.rxNbBytes 1 [count s],
      .w s.par.regs.irqFlags [0xFF#8]] := by
  rw [rejected, finish_trace, setRx_trace, regWrite_trace, goto_trace, counted_trace, List.append_assoc]
  rfl

theorem atBurst_trace (s : State) : (atBurst s).trace =
    s.trace ++ [.r s.par.regs.irqFlags 1 [flags s], .r s.par.regs.rxNbBytes 1 [count s],
      .r s.par.regs.fifoRxCurrent 1 [address s], .w s.par.regs.fifoAddrPtr [address s]] := by
  rw [atBurst, goto_trace, regWrite_trace, atPointer, goto_trace, setRxAddr_trace, regRead_trace_byte, atAddress,
    goto_trace, counted_trace]
  simp only [List.append_assoc]
  rfl

theorem accepted_trace (s : State) : (accepted s).trace =
    s.trace ++ [.r s.par.regs.irqFlags 1 [flags s], .r s.par.regs.rxNbBytes 1 [count s],
      .r s.par.regs.fifoRxCurrent 1 [address s], .w s.par.regs.fifoAddrPtr [address s],
      .r s.par.regs.fifo (count s).toNat (payload s), .r s.par.regs.pktRssi 1 [rawRssi s],
      .r s.par.regs.pktSnr 1 [rawSnr s], .w s.par.regs.irqFlags [0xFF#8]] := by
  rw [accepted, finish_trace, setRx_trace, regWrite_trace, atClear, goto_trace, setSnr_trace, regRead_trace_byte, atSnr,
    goto_trace, setRssi_trace, regRead_trace_byte, atRssi, goto_trace, recvPayload_trace, spiRead_trace, atBurst_trace]
  simp only [List.append_assoc]
  rfl

/-! ### The three ends (R201) -/

theorem nothing_ends (s : State) : Ends s (nothing s) { ended s with rxValid := false, rxOutcome := .nothing }
    { s.csr with irqf := flags s } (latched .recv s) [.r s.par.regs.irqFlags 1 [flags s]] :=
  ⟨rfl, rfl, rfl, rfl, peeked_trace s, wiresIdle_spiRead _ _ _, ⟨rfl, rfl, rfl, rfl, rfl, rfl⟩⟩

theorem rejected_ends (s : State) : Ends s (rejected s) { ended s with rxValid := false, rxOutcome := .rejected }
    { s.csr with irqf := flags s, rxnb := count s } { latched .recv s with nb := count s }
    [.r s.par.regs.irqFlags 1 [flags s], .r s.par.regs.rxNbBytes 1 [count s], .w s.par.regs.irqFlags [0xFF#8]] :=
  ⟨rfl, rfl, rfl, rfl, rejected_trace s, wiresIdle_spiWrite _ _ _, ⟨rfl, rfl, rfl, rfl, rfl, rfl⟩⟩

theorem accepted_ends (s : State) : Ends s (accepted s) { ended s with rxValid := true, rxOutcome := .accepted }
    { s.csr with
      irqf := flags s
      rxnb := count s
      rxlen := count s
      rssi := BitVec.ofInt 32 (((rawRssi s).toNat : Int) - 157)
      snr := rawSnr s
      snrdb := BitVec.ofInt 32 ((rawSnr s).toInt.tdiv 4) }
    { latched .recv s with nb := count s, rxAddr := address s }
    [.r s.par.regs.irqFlags 1 [flags s], .r s.par.regs.rxNbBytes 1 [count s],
      .r s.par.regs.fifoRxCurrent 1 [address s], .w s.par.regs.fifoAddrPtr [address s],
      .r s.par.regs.fifo (count s).toNat (payload s), .r s.par.regs.pktRssi 1 [rawRssi s],
      .r s.par.regs.pktSnr 1 [rawSnr s], .w s.par.regs.irqFlags [0xFF#8]] :=
  ⟨rfl, rfl, by rw [← rssiValue_eq]; rfl, rfl, accepted_trace s, wiresIdle_spiWrite _ _ _,
    ⟨rfl, rfl, rfl, rfl, rfl, rfl⟩⟩

/-! ### The buffers after ACCEPTED (R206) -/

theorem payload_length (s : State) : (payload s).length = (count s).toNat := spiAnswer_length _ _ _

theorem accepted_stored {i : Nat} {b : Byte} (h : (payload s)[i]? = some b) :
    bufByte (accepted s) (0x200 + i) = b :=
  bufByte_recvPayload_stored (s := spiRead s.par.regs.fifo (count s).toNat (atBurst s)) (payload_length s) h

theorem accepted_terminator (s : State) : bufByte (accepted s) (0x200 + (count s).toNat) = 0x00#8 :=
  (bufByte_recvPayload (payload s) (spiRead s.par.regs.fifo (count s).toNat (atBurst s)) _).trans (if_pos rfl)

theorem accepted_otherBytes {x : Nat} (hx : ¬ (0x200 ≤ x ∧ x ≤ 0x200 + (count s).toNat)) :
    bufByte (accepted s) x = bufByte s x :=
  bufByte_recvPayload_other (s := spiRead s.par.regs.fifo (count s).toNat (atBurst s)) (payload_length s) hx

end Recv

/-- Settles O21: the tests of labels 0 and 1 choose the end, and each end is a named state. -/
theorem recvEndsInOneOfThreeOutcomes : Obligations.RecvEndsInOneOfThreeOutcomes := by
  intro s hready
  by_cases hf : Recv.flags s &&& s.par.irqRxDone = 0#8
  · exact ⟨Recv.nothing s, Recv.flags s, Recv.exec_nothing hready hf, ⟨rfl, rfl⟩,
      .inl ⟨hf, Recv.nothing_ends s, bufByte_congr rfl rfl⟩⟩
  by_cases hnb : 0 < (Recv.count s).toNat ∧ (Recv.count s).toNat < 64
  · exact ⟨Recv.accepted s, Recv.flags s, Recv.exec_accepted hready hf hnb, ⟨rfl, rfl⟩,
      .inr (.inr ⟨hf, _, _, _, _, _, _, hnb, Recv.payload_length s, Recv.accepted_ends s,
        fun _ _ => Recv.accepted_stored, Recv.accepted_terminator s, fun _ => Recv.accepted_otherBytes⟩)⟩
  · exact ⟨Recv.rejected s, Recv.flags s, Recv.exec_rejected hready hf hnb, ⟨rfl, rfl⟩,
      .inr (.inl ⟨hf, Recv.count s, hnb, Recv.rejected_ends s, bufByte_congr rfl rfl⟩)⟩

/-! ## A scripted chip (R80) -/

namespace Recv

variable {s : State} {f nb a r q : Byte} {d answers rest : List Byte}

theorem flags_scripted (h : s.chip = .oracle (f :: answers)) : flags s = f ∧ (peeked s).chip = .oracle answers :=
  regRead_scripted (s := started .recv s) _ h

theorem count_scripted (h : s.chip = .oracle (f :: nb :: rest)) : count s = nb ∧ (counted s).chip = .oracle rest :=
  regRead_scripted (s := atCount s) _ (flags_scripted h).2

theorem address_scripted (h : s.chip = .oracle (f :: nb :: a :: rest)) :
    (atBurst s).chip = .oracle rest :=
  have hread := (regRead_scripted (s := atAddress s) s.par.regs.fifoRxCurrent (count_scripted h).2).2
  regWrites_scripted (s := atPointer s) [(_, _)] hread

theorem payload_scripted (h : s.chip = .oracle (f :: nb :: a :: (d ++ rest))) (hlen : d.length = nb.toNat) :
    payload s = d ∧ (atRssi s).chip = .oracle rest := by
  obtain ⟨hpayload, hchip⟩ := spiRead_scripted s.par.regs.fifo (address_scripted h)
  rw [hlen, ← (count_scripted h).1] at hpayload hchip
  exact ⟨hpayload, hchip⟩

theorem signal_scripted (h : s.chip = .oracle (f :: nb :: a :: (d ++ r :: q :: rest))) (hlen : d.length = nb.toNat) :
    rawRssi s = r ∧ rawSnr s = q ∧ (atClear s).chip = .oracle rest := by
  obtain ⟨hrssi, hsnrChip⟩ := regRead_scripted s.par.regs.pktRssi (payload_scripted h hlen).2
  obtain ⟨hsnr, hclearChip⟩ := regRead_scripted (s := atSnr s) s.par.regs.pktSnr hsnrChip
  exact ⟨hrssi, hsnr, hclearChip⟩

end Recv

/-- Settles O22: the script says which end it is, and RECV ends there as with any chip. -/
theorem recvFollowsTheChipsAnswers : Obligations.RecvFollowsTheChipsAnswers := by
  intro s f answers hready hchip
  obtain ⟨hf, hpeeked⟩ := Recv.flags_scripted hchip
  refine ⟨fun hclear => ?nothing, fun hdone nb rest hanswers hnb => ?rejected,
    fun hdone nb a r q d rest hanswers hpos hlimit hlen => ?accepted⟩
  case nothing =>
    exact ⟨Recv.nothing s, Recv.exec_nothing hready (hf ▸ hclear), rfl, hf, hpeeked⟩
  case rejected =>
    subst hanswers
    obtain ⟨hcount, hcounted⟩ := Recv.count_scripted hchip
    exact ⟨Recv.rejected s, Recv.exec_rejected hready (hf ▸ hdone) (hcount ▸ hnb), rfl, hcount,
      regWrites_scripted (s := goto .recv 8#8 (Recv.counted s)) [(_, _)] hcounted⟩
  case accepted =>
    subst hanswers
    have hcount := (Recv.count_scripted hchip).1
    have hpayload := (Recv.payload_scripted hchip hlen).1
    obtain ⟨hrssi, hsnr, hclear⟩ := Recv.signal_scripted hchip hlen
    refine ⟨Recv.accepted s, Recv.exec_accepted hready (hf ▸ hdone) (hcount ▸ ⟨hpos, hlimit⟩), rfl, hcount, hsnr,
      ?_, fun i b hb => Recv.accepted_stored (hpayload ▸ hb),
      regWrites_scripted (s := Recv.atClear s) [(_, _)] hclear⟩
    rw [(Recv.accepted_ends s).csr, hrssi]

end Sys2Proof.Machine
end

section
/-! SUPPORT. Proofs about initialisation and configuration (44_init_config.md R222 to R232) and about refusal
(60_exceptions.md R241): what a refused word changes, the values CONFIG computes, the runs of INIT and of CONFIG. -/

namespace Sys2Proof.Machine

open Sys2Proof.Claims

/-! ## Refusal (R225, R240, R241) -/

/-- A refused word changes the latched word, DONE and the error code: an idle block stays idle. -/
theorem cmdError_latchWord_of_idle {s : State} (h : s.seq = .idle) (code : ErrCode) (w : Word) :
    cmdError code (latchWord w s) =
      { s with lat := { s.lat with cmd := w }, status := { s.status with done := true, errCode := code } } := by
  rw [cmdError, ← h]
  rfl

/-- A submitted word that the decoder refuses is refused by a block that is ready. -/
theorem stepCommand_of_refused {w : Word} {e : WordError} {s : State} (h : decodeWord w = .error e) (hready : Ready s) :
    stepCommand w s = .next (cmdError (errOfWord e) (latchWord w s)) := by
  have hdecode := decode_wordBytes w []
  rw [List.append_nil, h] at hdecode
  rw [stepCommand, fetchBytes, hdecode]
  exact congrArg _ (whenReady_idle hready.1 hready.2 _)

theorem freqInRange_iff {f : Word} : freqInRange f = true ↔ f.toNat ≤ 1023999969 := decide_eq_true_iff

/-- CONFIG with a frequency past the range is refused at its submission (R225). -/
theorem exec_config_of_outOfRange {s : State} (hready : Ready s) (h : s.csr.freq.toNat > 1023999969) :
    exec .config s = .next (cmdError .freqRange (latchWord (encode .config) s)) := by
  have hrefused : freqInRange s.csr.freq = false := Bool.eq_false_iff.mpr (mt freqInRange_iff.mp (by omega))
  rw [exec_eq_runTable .config hready, beginCommand, if_pos ⟨rfl, hrefused⟩, runTable_idle _ _ rfl]

/-- Settles O9: both refusals of R240 are `cmdError` after the word is latched. -/
theorem refusedWordHasNoPartialEffect : Obligations.RefusedWordHasNoPartialEffect := by
  refine ⟨fun s w e rest hready hin herr => ?word, fun s hready hfreq => ?frequency, rfl, rfl, rfl⟩
  case word =>
    have hready' : Ready { s with inputs := rest } := hready
    rw [step_of_command hin, stepCommand_of_refused herr hready', cmdError_latchWord_of_idle hready'.2]
  case frequency =>
    rw [exec_config_of_outOfRange hready hfreq, cmdError_latchWord_of_idle hready.2]
    rfl

/-! ## The frequency value (R228) -/

theorem frfNat_eq (f : Nat) : frfNat f = (512 * f + 15625) / 31250 := rfl

/-- FREQ_MAX is the largest frequency whose value fits in the 24 bits of FRF. -/
theorem frfNat_lt_iff (f : Nat) : frfNat f < 2 ^ 24 ↔ f ≤ 1023999969 := by
  rw [frfNat_eq]
  omega

theorem frfValue_toNat {f : Word} (h : freqInRange f = true) : (frfValue f).toNat = frfNat f.toNat := by
  rw [frfValue, BitVec.toNat_ofNat, Nat.mod_eq_of_lt ((frfNat_lt_iff _).mpr (freqInRange_iff.mp h))]

/-- Half a frequency step is no whole number of Hz: the nearest register value is one value. -/
theorem frequency_ne_tie (f k : Nat) : 512 * f ≠ 15625 * (2 * k + 1) := by
  omega

/-- Settles O26: the bounds are those of the integer quotient, and FREQ_MAX + 1 is refused. -/
theorem frequencyValueIsNearest : Obligations.FrequencyValueIsNearest := by
  refine ⟨fun f => ⟨?lower, ?upper, frequency_ne_tie f⟩, fun f => freqInRange_iff.trans (frfNat_lt_iff _).symm,
    fun f => frfValue_toNat, frfNat_eq _, frfNat_eq _, frfNat_eq _, frfNat_eq _, frfNat_eq _, frfNat_eq _, frfNat_eq _,
    fun s hready hfreq => ?refused⟩
  case lower => exact Nat.mul_div_le _ _
  case upper => exact Nat.lt_mul_div_succ _ (by decide)
  case refused => exact ⟨_, exec_config_of_outOfRange hready (by rw [hfreq]; decide), rfl, rfl⟩

/-! ## The power (R229, R232) -/

theorem clampPower_eq (w : Word) : clampPower w = max 5 (min 23 w.toInt) := rfl

theorem highPower_iff {pwr : Word} : highPower pwr = true ↔ 20 < clampPower pwr := decide_eq_true_iff

/-- The clamped power fits the byte PEFF holds. -/
theorem peffValue_toNat (w : Word) : ((peffValue w).toNat : Int) = clampPower w := by
  rw [peffValue, BitVec.toNat_ofInt, clampPower_eq]
  omega

/-- Settles O27: the clamp of R229, whose result fits PEFF. -/
theorem powerIsClamped : Obligations.PowerIsClamped :=
  ⟨fun w => ⟨clampPower_eq w, peffValue_toNat w⟩, peffValue_range, by decide⟩

/-- For a clamped power the default table holds the default byte. -/
theorem paConfigVal_default {p : Nat} (hlow : 5 ≤ p) (hhigh : p ≤ 23) :
    paConfigVal Params.default p = Params.defaultPaConfig p := by
  have hindex : ((p : Int) - Config.pMin).toNat = p - 5 := by
    rw [Config.pMin]
    omega
  rw [paConfigVal, hindex, Params.default, Vector.getElem?_ofFn, dif_pos (by omega), Option.getD_some,
    Nat.sub_add_cancel hlow]

/-- Settles O30: the default table is filled from the default byte, entry `p - 5` for the power p. -/
theorem defaultAmplifierByte : Obligations.DefaultAmplifierByte :=
  ⟨fun p => paConfigVal_default (p := p.val + 5) (by omega) (by omega),
    paConfigVal_default (p := 5) (by decide) (by decide), paConfigVal_default (p := 10) (by decide) (by decide),
    paConfigVal_default (p := 17) (by decide) (by decide), paConfigVal_default (p := 23) (by decide) (by decide), rfl⟩

/-! ## INIT (R222, R223) -/

namespace Init

/-- INIT at label 5: the reset pulse and its two waits are over. -/
def settled (s : State) : State :=
  goto .init 5#8 (waitMs Config.resetSettleMs (setReset true (waitMs Config.resetLowMs
    (setReset false (setReset true (started .init s))))))

/-- INIT at label 6: the chip has been put to sleep. -/
def asleep (s : State) : State := goto .init 6#8 (regWrite s.par.regs.opmode s.par.modeSleep (settled s))

/-- The identification label 6 reads. -/
def version (s : State) : Byte := regAnswer s.par.regs.version (asleep s)

/-- The end of INIT: RDATA, CHIP_ABSENT, INIT_DONE and CFG_DONE written (R223). -/
def identified (s : State) : State :=
  finish (initIdentified (version s) (setRdata (version s) (regRead s.par.regs.version (asleep s))))

theorem run_settled (s : State) (fuel : Nat) :
    runTable initSteps (fuel + 5) (started .init s) = runTable initSteps fuel (settled s) := by
  rw [runTable_step rfl rfl, runTable_step rfl rfl, runTable_step rfl rfl, runTable_step rfl rfl, runTable_step rfl rfl]
  rfl

theorem exec_identified {s : State} (hready : Ready s) : exec .init s = .next (identified s) := by
  have hrun : runTable initSteps 7 (started .init s) = identified s := by
    rw [run_settled s 2, runTable_step (t := asleep s) rfl rfl, runTable_step (t := identified s) rfl rfl,
      runTable_idle _ _ rfl]
  rw [exec_eq_runTable .init hready, beginCommand_accept (i := .init) nofun]
  exact congrArg _ hrun

/-- What the observer sees of INIT: no transaction before the reset pulse and its waits are over (R221, R286). -/
def events (s : State) : List Event :=
  [.reset true, .reset false, .wait 10, .reset true, .wait 10, .w s.par.regs.opmode [s.par.modeSleep],
    .r s.par.regs.version 1 [version s]]

theorem identified_trace (s : State) : (identified s).trace = s.trace ++ events s := by
  rw [identified, finish_trace, initIdentified_trace, setRdata_trace, regRead_trace_byte, asleep, goto_trace,
    regWrite_trace, settled, goto_trace, waitMs_trace, setReset_trace, waitMs_trace, setReset_trace, setReset_trace]
  simp only [List.append_assoc]
  rfl

theorem identified_ends (s : State) : Ends s (identified s)
    { ended s with
      chipAbsent := decide (version s = 0x00#8 ∨ version s = 0xFF#8), initDone := true, cfgDone := false }
    { s.csr with rdata := version s } (latched .init s) (events s) :=
  ⟨rfl, rfl, rfl, rfl, identified_trace s, wiresIdle_spiRead _ _ _, ⟨rfl, rfl, rfl, rfl, rfl, rfl⟩⟩

/-- A scripted chip takes the reset pulse and the sleep write without an answer. -/
theorem asleep_scripted {s : State} {answers : List Byte} (h : s.chip = .oracle answers) :
    (asleep s).chip = .oracle answers := by
  have hstarted : (started .init s).chip = .oracle answers := h
  have hsettled : (settled s).chip = .oracle answers := by
    rw [settled, goto_chip, waitMs_chip, setReset_chip, waitMs_chip, setReset_chip, setReset_chip, hstarted]
    rfl
  exact regWrites_scripted (s := settled s) [(_, _)] hsettled

end Init

/-- Settles O23: INIT runs through its labels to `Init.identified`; its one read is the identification. -/
theorem initResetsAndIdentifiesTheChip : Obligations.InitResetsAndIdentifiesTheChip := fun s hready =>
  ⟨Init.identified s, Init.version s, Init.exec_identified hready, Init.identified_ends s,
    fun _ _ hchip => regRead_scripted (s := Init.asleep s) _ (Init.asleep_scripted hchip), rfl, bufByte_congr rfl rfl⟩

/-! ## Labels that only write registers -/

theorem regWrites_cons (w : ChipAddr × Byte) (ws : List (ChipAddr × Byte)) (s : State) :
    regWrites (w :: ws) s = regWrites ws (regWrite w.1 w.2 s) := rfl

theorem regWrites_append (ws vs : List (ChipAddr × Byte)) (s : State) :
    regWrites (ws ++ vs) s = regWrites vs (regWrites ws s) := List.foldl_append

theorem regWrites_par (ws : List (ChipAddr × Byte)) (s : State) : (regWrites ws s).par = s.par :=
  congrArg (·.par) (regWrites_eq ws s)

theorem regWrites_lat (ws : List (ChipAddr × Byte)) (s : State) : (regWrites ws s).lat = s.lat :=
  congrArg (·.lat) (regWrites_eq ws s)

/-- From label `n` to label `m` the labels of the table write these registers, one each, whenever the configuration and
the latches are these. -/
inductive WritesUpTo (table : StepTable) (o : Opcode) (p : Params) (l : Latches) (m : BitVec 8) :
    BitVec 8 → List (ChipAddr × Byte) → Prop where
  | none : WritesUpTo table o p l m m []
  | cons {n : BitVec 8} {w : ChipAddr × Byte} {ws : List (ChipAddr × Byte)}
    (label : ∀ s : State, s.par = p → s.lat = l → table n.toNat s = some (goto o (n + 1#8) (regWrite w.1 w.2 s)))
    (rest : WritesUpTo table o p l m (n + 1#8) ws) : WritesUpTo table o p l m n (w :: ws)

/-- The run through such labels is the series of their writes. -/
theorem runTable_writes {table : StepTable} {o : Opcode} {p : Params} {l : Latches} {m n : BitVec 8}
    {ws : List (ChipAddr × Byte)} (h : WritesUpTo table o p l m n ws) {s : State} (hpar : s.par = p) (hlat : s.lat = l)
    (fuel : Nat) :
    runTable table (fuel + ws.length) (goto o n s) = runTable table fuel (goto o m (regWrites ws s)) := by
  induction h generalizing s with
  | none => rfl
  | cons label _ ih =>
    rw [List.length_cons, ← Nat.add_assoc, runTable_step rfl (label (goto o _ s) hpar hlat), regWrite_goto, goto_goto]
    exact ih hpar hlat

/-! ## CONFIG (R226) -/

/-- The register writes of labels 1 to 5: the modes after sleep, and the frequency. -/
def frequencyWrites (p : Params) (freq : Word) : List (ChipAddr × Byte) :=
  [(p.regs.opmode, loraSleep p), (p.regs.opmode, loraStandby p), (p.regs.frfMsb, (frfValue freq).extractLsb' 16 8),
    (p.regs.frfMid, (frfValue freq).extractLsb' 8 8), (p.regs.frfLsb, (frfValue freq).extractLsb' 0 8)]

/-- The register writes of labels 6 and 7; only a power above 20 dBm reaches label 7 (R230). -/
def amplifierWrites (p : Params) (pwr : Word) : List (ChipAddr × Byte) :=
  (p.regs.paConfig, paConfigVal p (clampPower pwr)) ::
    if 20 < clampPower pwr then [(p.regs.paDac, p.padacHigh)] else []

/-- The register writes of labels 8 to 13: the modem, the preamble, the FIFO bases. -/
def modemWrites (p : Params) : List (ChipAddr × Byte) :=
  [(p.regs.modemCfg1, p.modemCfg1), (p.regs.modemCfg2, p.modemCfg2),
    (p.regs.preambleMsb, Config.preambleLen.extractLsb' 8 8), (p.regs.preambleLsb, Config.preambleLen.extractLsb' 0 8),
    (p.regs.fifoTxBase, Config.txBase), (p.regs.fifoRxBase, Config.rxBase)]

theorem frequency_labels (p : Params) (l : Latches) :
    WritesUpTo configSteps .config p l 6#8 1#8 (frequencyWrites p l.freq) :=
  .cons (fun | _, rfl, rfl => rfl) <| .cons (fun | _, rfl, rfl => rfl) <| .cons (fun | _, rfl, rfl => rfl) <|
    .cons (fun | _, rfl, rfl => rfl) <| .cons (fun | _, rfl, rfl => rfl) .none

theorem modem_labels (p : Params) (l : Latches) : WritesUpTo configSteps .config p l 14#8 8#8 (modemWrites p) :=
  .cons (fun | _, rfl, rfl => rfl) <| .cons (fun | _, rfl, rfl => rfl) <| .cons (fun | _, rfl, rfl => rfl) <|
    .cons (fun | _, rfl, rfl => rfl) <| .cons (fun | _, rfl, rfl => rfl) <| .cons (fun | _, rfl, rfl => rfl) .none

/-- Label 6, where the power says whether label 7 comes next. -/
theorem amplifier_label (s : State) : configSteps 6 (goto .config 6#8 s) =
    some (goto .config (if 20 < clampPower s.lat.pwr then 7#8 else 8#8)
      (regWrite s.par.regs.paConfig (paConfigVal s.par (clampPower s.lat.pwr)) s)) := by
  simp only [← highPower_iff]
  rfl

theorem highPower_label (s : State) : configSteps 7 (goto .config 7#8 s) =
    some (goto .config 8#8 (regWrite s.par.regs.paDac s.par.padacHigh s)) := rfl

theorem last_label (s : State) : configSteps 14 (goto .config 14#8 s) =
    some (finish (setCfgDone (regWrite s.par.regs.opmode (loraStandby s.par) s))) := rfl

/-- Labels 8 to 14: the modem, and the return to standby that ends CONFIG. -/
theorem run_modem (s : State) (fuel : Nat) : runTable configSteps (fuel + 7) (goto .config 8#8 s) =
    finish (setCfgDone (regWrites (modemWrites s.par ++ [(s.par.regs.opmode, loraStandby s.par)]) s)) := by
  refine (runTable_writes (modem_labels s.par s.lat) rfl rfl (fuel + 1)).trans ?_
  rw [runTable_step rfl (last_label _), runTable_idle _ _ rfl, regWrites_append, regWrites_par]
  rfl

/-- Labels 6 to 14, by way of label 7 or past it. -/
theorem run_amplifier (s : State) : runTable configSteps 9 (goto .config 6#8 s) =
    finish (setCfgDone (regWrites
      (amplifierWrites s.par s.lat.pwr ++ modemWrites s.par ++ [(s.par.regs.opmode, loraStandby s.par)]) s)) := by
  rw [runTable_step rfl (amplifier_label s), amplifierWrites, List.append_assoc]
  by_cases h : 20 < clampPower s.lat.pwr
  · rw [if_pos h, if_pos h, runTable_step rfl (highPower_label _), run_modem _ 0, regWrite_par, regWrite_par,
      List.cons_append, List.singleton_append, regWrites_cons, regWrites_cons]
  · rw [if_neg h, if_neg h, run_modem _ 1, regWrite_par, List.cons_append, List.nil_append, regWrites_cons]

/-- The register writes of CONFIG after the sleep write of label 0, in the order of R226. -/
def configWrites (p : Params) (freq pwr : Word) : List (ChipAddr × Byte) :=
  frequencyWrites p freq ++ (amplifierWrites p pwr ++ modemWrites p ++ [(p.regs.opmode, loraStandby p)])

/-- CONFIG after its label 0: asleep, FRF and PEFF written. -/
def valuesStored (s : State) : State := configStart (regWrite s.par.regs.opmode s.par.modeSleep (started .config s))

/-- The end of CONFIG: the other writes, and CFG_DONE. -/
def configDone (s : State) : State :=
  finish (setCfgDone (regWrites (configWrites s.par s.csr.freq s.csr.pwr) (valuesStored s)))

theorem exec_config {s : State} (hready : Ready s) (h : s.csr.freq.toNat ≤ 1023999969) :
    exec .config s = .next (configDone s) := by
  have haccepted : beginCommand (encode .config) .config s = started .config s :=
    if_neg fun hrefused => Bool.eq_false_iff.mp hrefused.2 (freqInRange_iff.mpr h)
  have hlabel : configSteps 0 (started .config s) = some (goto .config 1#8 (valuesStored s)) := rfl
  have hrun : runTable configSteps 15 (started .config s) = configDone s := by
    refine (runTable_step rfl hlabel).trans ?_
    refine (runTable_writes (s := valuesStored s) (frequency_labels s.par (valuesStored s).lat) rfl rfl 9).trans ?_
    rw [run_amplifier, regWrites_par, regWrites_lat, ← regWrites_append]
    rfl
  rw [exec_eq_runTable .config hready, haccepted]
  exact congrArg _ hrun

/-- What the observer sees of CONFIG. -/
def configEvents (p : Params) (freq pwr : Word) : List Event :=
  writeEvents ((p.regs.opmode, p.modeSleep) :: frequencyWrites p freq ++
      [(p.regs.paConfig, paConfigVal p (clampPower pwr))]) ++
    (if 20 < clampPower pwr then [.w p.regs.paDac [p.padacHigh]] else []) ++
    writeEvents (modemWrites p ++ [(p.regs.opmode, loraStandby p)])

theorem sleep_cons_writeEvents_configWrites (p : Params) (freq pwr : Word) :
    .w p.regs.opmode [p.modeSleep] :: writeEvents (configWrites p freq pwr) = configEvents p freq pwr := by
  rw [configWrites, amplifierWrites, configEvents]
  by_cases h : 20 < clampPower pwr
  · rw [if_pos h, if_pos h]; rfl
  · rw [if_neg h, if_neg h]; rfl

/-- A command that started in `s` and stands in `u` ends with a series of register writes and CFG_DONE. -/
theorem ends_setCfgDone_regWrites {s u : State} {ws : List (ChipAddr × Byte)} {es : List Event} (hws : ws ≠ [])
    (htrace : u.trace = s.trace ++ es) (haround : Around s u) :
    Ends s (finish (setCfgDone (regWrites ws u))) { u.status with done := true, cfgDone := true } u.csr u.lat
      (es ++ writeEvents ws) ∧
    SameBuffers u (finish (setCfgDone (regWrites ws u))) ∧ SameTimers u (finish (setCfgDone (regWrites ws u))) := by
  have hwires : WiresIdle (regWrites ws u) := wiresIdle_regWrites hws u
  obtain ⟨hsync, hrstN, hpar, hinputs, hvars, hepoch⟩ := haround
  rw [regWrites_eq] at hwires ⊢
  rw [htrace, List.append_assoc]
  exact ⟨⟨rfl, rfl, rfl, rfl, rfl, hwires, ⟨hsync, hrstN, hpar, hinputs, hvars, hepoch⟩⟩, bufByte_congr rfl rfl,
    rfl, rfl⟩

theorem configWrites_ne_nil (p : Params) (freq pwr : Word) : configWrites p freq pwr ≠ [] := List.cons_ne_nil _ _

/-- Settles O24: the labels of CONFIG are its register writes in order, with the two result registers beside the first
and CFG_DONE beside the last. -/
theorem configProgramsTheModem : Obligations.ConfigProgramsTheModem := by
  rintro s _ _ hready hfreq rfl rfl
  obtain ⟨hends, hbuffers, htimers⟩ := ends_setCfgDone_regWrites (configWrites_ne_nil s.par s.csr.freq s.csr.pwr)
    (s := s) (u := valuesStored s) (es := [.w s.par.regs.opmode [s.par.modeSleep]]) rfl
    ⟨rfl, rfl, rfl, rfl, rfl, rfl⟩
  rw [List.singleton_append, sleep_cons_writeEvents_configWrites] at hends
  exact ⟨configDone s, exec_config hready hfreq, hends, hbuffers, htimers⟩

end Sys2Proof.Machine
end

section
/-! SUPPORT. Proofs about the host interrupt and concurrency (60_exceptions.md R243, R246, R249 to R252): host writes
while BUSY, the DIO0 synchroniser, the interrupt line and the order of the parts of a `clk` cycle. -/

namespace Sys2Proof.Machine

open Sys2Proof.Claims

/-! ## Host writes while BUSY (R246) -/

/-- Settles O38: the writes guarded by BUSY all meet the same overrun; every other write is its register's action
whatever BUSY is. -/
theorem busyBlockDropsHostWrites : Obligations.BusyBlockDropsHostWrites := by
  intro s a v r o n hrst hseq hreg
  have hwrite := hostWrite_mapped v hrst hreg
  have hdropped (act : State → State) : respond 0#32 false (unlessBusy s act) = respond 0#32 false (overrun s) := by
    rw [unlessBusy_busy hseq]
  refine ⟨0#32, ?_⟩
  cases r
  case cmd | txlen | freq | pwr | txbuf => exact hwrite.trans (hdropped _)
  all_goals exact hwrite

/-! ## The DIO0 part of a cycle (R249, R250) -/

theorem cycleHost_leaves (acc : Option HostAccess) (s : State) : HostLeaves s (cycleHost acc s) := by
  cases acc with
  | none => rfl
  | some acc => exact hostAccess_leaves acc s

theorem cycleDio_outOfReset {s : State} (hrst : s.rstN = true) (level : Bool) :
    cycleDio level s = dioUpdate level s := by
  simp [cycleDio, hrst]

/-- Neither the host's part of a cycle nor the sequencer's moves the synchroniser or the reset pin. -/
theorem cycleSeq_cycleHost_leaves {acc : Option HostAccess} {ends : Bool} {s u : State}
    (h : cycleSeq ends (cycleHost acc s) = .next u) : u.sync = s.sync ∧ u.rstN = s.rstN := by
  have hhost := cycleHost_leaves acc s
  have hframe := cycleSeq_frame h
  exact ⟨hframe.sync.trans (congrArg (·.sync) hhost), hframe.rstN.trans (congrArg (·.rstN) hhost)⟩

/-- Out of reset a cycle ends with the DIO0 update of what the host and the sequencer left. -/
theorem cycleMove_outOfReset {acc : Option HostAccess} {ends level : Bool} {s t : State} (hrst : s.rstN = true)
    (h : cycleMove acc ends level s = .next t) :
    ∃ u, cycleSeq ends (cycleHost acc s) = .next u ∧ t = dioUpdate level u := by
  obtain ⟨u, hseq, rfl⟩ := cycleMove_cases h
  exact ⟨u, hseq, cycleDio_outOfReset ((cycleSeq_cycleHost_leaves hseq).2.trans hrst) level⟩

/-- Settles O41: the DIO0 update shifts the synchroniser as the cycle found it. -/
theorem cycleShiftsTheSynchroniser : Obligations.CycleShiftsTheSynchroniser := by
  intro s t acc ends level hrst hcycle
  obtain ⟨u, hseq, rfl⟩ := cycleMove_outOfReset hrst hcycle
  have hsync : (dioUpdate level u).sync = ⟨level, s.sync.s1, s.sync.s2⟩ := by
    rw [dioUpdate_sync, (cycleSeq_cycleHost_leaves hseq).1]
  obtain ⟨-, -, -, -, -, -, -, -, -, hlevel⟩ := statusWord_bits (dioUpdate level u)
  exact ⟨hsync, by rw [hlevel, hsync]⟩

/-- A scheduled cycle without a host access and without the end of a sequencer step is a DIO0 update. -/
theorem step_of_dioCycle {s : State} {level : Bool} {rest : List Input} (hrst : s.rstN = true)
    (hin : s.inputs = .cycle none false level :: rest) :
    step s = .next (dioUpdate level { s with inputs := rest }) := by
  rw [step_of_agent hin nofun]
  exact congrArg Host.Outcome.next (cycleDio_outOfReset (s := { s with inputs := rest }) hrst level)

theorem steps_succ_of_step {s t : State} {n : Nat} (h : step s = .next t) : steps (n + 1) s = steps n t := by
  rw [steps, h]

/-- Settles O42: the level reaches the second stage in the second cycle, so the third finds the edge. -/
theorem dioEdgeIsSeenWithinThreeCycles : Obligations.DioEdgeIsSeenWithinThreeCycles := by
  intro s rest level hrst hsync hin
  have hsteps : steps 3 s =
      steps 0 (dioUpdate level (dioUpdate level (dioUpdate level { s with inputs := rest }))) :=
    calc steps 3 s
      _ = steps 2 _ := steps_succ_of_step (step_of_dioCycle hrst hin)
      _ = steps 1 _ := steps_succ_of_step (step_of_dioCycle hrst rfl)
      _ = steps 0 _ := steps_succ_of_step (step_of_dioCycle hrst rfl)
  exact ⟨_, hsteps, rfl, rfl, by simp [hsync]⟩

/-! ## The order within a cycle (R252) -/

/-- When a running command's step ends in a state with the sequencer idle, the command has finished (R243). -/
theorem seqMove_run_done {s t : State} {o : Opcode} {n : BitVec 8} (h : seqMove s = .next t) (hrst : s.rstN = true)
    (hseq : s.seq = .run o n) (hidle : t.seq = .idle) : t.status.done = true := by
  obtain ⟨-, ⟨-, hdone⟩ | ⟨m, hrun⟩⟩ := stepsOf_frame ((seqMove_run_iff hrst hseq).mp h)
  · exact hdone
  · exact nomatch hidle.symm.trans hrun

/-- Settles O43: the sequencer's step and the DIO0 update come after the host's write, so they keep its OVR and set DONE
and DIO over its clear. -/
theorem sameCycleOrder : Obligations.SameCycleOrder := by
  intro s t w level o n hrst hseq
  refine ⟨fun hcycle => ?cmd, fun hcycle => ⟨?done, ?dio⟩⟩
  case cmd =>
    obtain ⟨u, hstep, rfl⟩ := cycleMove_outOfReset hrst hcycle
    obtain ⟨d, hwrite⟩ := busyBlockDropsHostWrites s 0x000#12 w .cmd o n hrst hseq rfl
    rw [cycleHost, hostAccess, hwrite] at hstep
    have hframe := cycleSeq_frame hstep
    exact ⟨hframe.ovr, hframe.cmd⟩
  case done =>
    obtain ⟨u, hstep, rfl⟩ := cycleMove_outOfReset hrst hcycle
    obtain ⟨d, hwrite⟩ := busyBlockDropsHostWrites s 0x004#12 w .status o n hrst hseq rfl
    rw [cycleHost, hostAccess, hwrite, cycleSeq, if_pos rfl] at hstep
    have hdone := seqMove_run_done hstep hrst hseq
    exact hdone
  case dio => exact fun hs2 hprev => statusIsWriteOneToClear.2 s t w true level hrst hs2 hprev hcycle

/-! ## The interrupt line (R251) -/

/-- Settles O40: a write of 0 to INTEN masks both terms, a write of ones to DONE and DIO clears both sources. -/
theorem interruptLineIsEnabledSources : Obligations.InterruptLineIsEnabledSources := by
  refine fun s => ⟨?line, fun hrst => ?masked, fun hrst => ?cleared⟩
  case line => simp [irqO]
  case masked =>
    rw [hostWrite_mapped (r := .inten) 0x0#32 hrst rfl]
    rfl
  case cleared =>
    rw [hostWrite_mapped (r := .status) 0xA#32 hrst rfl]
    simp [irqO, hostRegWrite, Status.clear]

end Sys2Proof.Machine
end

section
/-! SUPPORT. Proofs about block reset (70_reset_and_hazards.md R270 to R273): what the fall of `rst_n` leaves, and that
every agent's move is without effect while it is 0. -/

namespace Sys2Proof.Machine

open Sys2Proof.Claims

/-! ## The fall and the rise of `rst_n` (R270, R273) -/

/-- At the reset values no interrupt is enabled, so the line is low (R251). -/
theorem AtReset.irqO_eq_false {s : State} (h : AtReset s) : irqO s = false := by
  obtain ⟨-, hcsr, -⟩ := h
  simp [irqO, hcsr, Csr.reset]

theorem blockReset_atReset (s : State) : AtReset (blockReset s) := atReset_reset

/-- A scheduled level of `rst_n` is taken off the schedule and driven. -/
theorem step_of_rst {s : State} {level : Bool} {rest : List Input} (h : s.inputs = .rst level :: rest) :
    step s = .next (setRst level { s with inputs := rest }) :=
  step_of_agent h nofun

/-- Settles O45: the fall of `rst_n` is `blockReset`, its rise changes the level of the pin alone. -/
theorem blockResetTakesResetValues : Obligations.BlockResetTakesResetValues := by
  refine ⟨fun s rest hin => ?fall, fun s rest hreset hin => ?rise⟩
  case fall =>
    have hreset := blockReset_atReset { s with inputs := rest }
    exact ⟨_, step_of_rst hin, hreset, rfl, hreset.irqO_eq_false, rfl, rfl, rfl, rfl⟩
  case rise =>
    have hkept : AtReset (setRst true { s with inputs := rest }) := hreset
    exact ⟨_, step_of_rst hin, hkept, rfl, hkept.irqO_eq_false, rfl⟩

/-! ## While `rst_n` is 0 (R270, R271) -/

section
variable {s : State} (hrst : s.rstN = false)
include hrst

theorem exec_inReset (i : Instr) : exec i s = .next s := by
  obtain ⟨fuel, hexec⟩ := exec_eq i s
  rw [hexec, whenReady_inReset hrst]

theorem sequencerMove_inReset : sequencerMove s = .next s := by
  rw [sequencerMove, seqMove_inReset hrst, ite_self]

theorem timeBaseMove_inReset : timeBaseMove s = .next s := by
  rw [timeBaseMove, seqMove_inReset hrst, ite_self]

/-- The block answers 0 without an error to every access, and does nothing else. -/
theorem hostAccess_inReset (acc : HostAccess) : hostAccess acc s = respond 0#32 false s := by
  cases acc with
  | read a => simp [hostAccess, hostRead, hrst]
  | write a v => simp [hostAccess, hostWrite, hrst]

theorem dio0RiseMove_inReset : dio0RiseMove s = s := by
  simp [dio0RiseMove, hrst]

theorem cycleHost_inReset (acc : Option HostAccess) : ∃ b, cycleHost acc s = { s with bus := b } := by
  cases acc with
  | none => exact ⟨s.bus, rfl⟩
  | some acc => exact ⟨_, hostAccess_inReset hrst acc⟩

theorem cycleSeq_inReset (ends : Bool) : cycleSeq ends s = .next s := by
  rw [cycleSeq, seqMove_inReset hrst, ite_self]

theorem cycleDio_inReset (level : Bool) : cycleDio level s = s := by
  simp [cycleDio, hrst]

/-- After the host's part of the cycle the pin is still low, so the other two parts do nothing. -/
theorem cycleMove_inReset (acc : Option HostAccess) (ends level : Bool) :
    ∃ b, cycleMove acc ends level s = .next { s with bus := b } := by
  obtain ⟨b, hhost⟩ := cycleHost_inReset hrst acc
  have hlow : { s with bus := b }.rstN = false := hrst
  refine ⟨b, ?_⟩
  simp only [cycleMove, hhost, cycleSeq_inReset hlow, cycleDio_inReset hlow]

end

/-- Settles O46: every agent's move is behind `rst_n`, and an idle sequencer has no label to run. -/
theorem nothingMovesInReset : Obligations.NothingMovesInReset := by
  refine ⟨fun s i a v hrst => ?inReset, fun s hready hin => ?idle⟩
  case inReset =>
    exact ⟨exec_inReset hrst i, seqMove_inReset hrst, sequencerMove_inReset hrst, timeBaseMove_inReset hrst,
      hostAccess_inReset hrst (.read a), ⟨0#32, hostAccess_inReset hrst (.write a v)⟩, dio0RiseMove_inReset hrst,
      cycleMove_inReset hrst⟩
  case idle =>
    obtain ⟨-, hidle⟩ := hready
    rw [step_of_no_inputs hin, seqMove_idle hidle]

/-! ## The invariant right after reset (R270) -/

/-- Settles O47: the reset values meet the invariant, and the host has no variable yet. -/
theorem resetMeetsInvariant : Obligations.ResetMeetsInvariant := atReset_reset.blockInvariant rfl

end Sys2Proof.Machine
end
